-- ==== Sys2Proof/Word.lean ====
section
/-! DEFINITION. The widths of `00_scope.md` R7 and the word types of the ports and registers. -/

namespace Sys2Proof

/-- `W`: width in bits of the SET_SPEED operands at the port (R7, decision D5). -/
abbrev operandWidth : Nat := 32

/-- `SW`: width of each SPEED register (R7, decision D6). -/
abbrev speedWidth : Nat := 8

/-- `CW`: width of TOP, DUTY, ACT and CNT (R7, decision D6). -/
abbrev countWidth : Nat := 16

/-- A command byte (R61). -/
abbrev Byte := BitVec 8

/-- A SET_SPEED operand at the port, two's complement (R42). -/
abbrev Operand := BitVec operandWidth

/-- The contents of a SPEED register, two's complement (R21). -/
abbrev SpeedWord := BitVec speedWidth

/-- The contents of a TOP, DUTY, ACT or CNT register, unsigned (R23, R131). -/
abbrev Count := BitVec countWidth

/-- The packed request word `REQ[73:0]` (R66). -/
abbrev ReqWord := BitVec 74

/-- A motor channel: left or right (`N_CH` = 2, R7). -/
inductive ChannelId where
  | L
  | R
deriving DecidableEq, Repr

end Sys2Proof
end

