-- ==== Sys2Proof/Config.lean ====
section
/-! DEFINITION. The implementation parameters of `00_scope.md` R7, the constraints of R8, and the free values:
constants with no body, of which nothing can be proved but that they exist. -/

namespace Sys2Proof

/-- Every numeric literal of the source as a named parameter (R7). `N_CH`, `W`, `SW` and `CW` fix types and stand in
`Word.lean`; `F_CLK` is open and stands below as `Config.fClk`. -/
structure Config where
  /-- `PCT_MIN`: lower clamp bound of a speed percent. -/
  pctMin : Int
  /-- `PCT_MAX`: upper clamp bound of a speed percent. -/
  pctMax : Int
  /-- `PCT_DEN`: divisor of the duty formula. -/
  pctDen : Nat
  /-- `CARRIER_TOP`: counter value defining the PWM period of both channels. -/
  carrierTop : Nat
  /-- `CLOCK_DIVIDER`: the source's float, as the rational it stands for. -/
  clockDivider : Rat
  /-- `F_PWM_NOMINAL` in Hz. -/
  pwmNominal : Nat
  /-- `SPEED_FWD`: the (left, right) pair of directive Forward. -/
  speedFwd : Int × Int
  /-- `SPEED_BWD`: the pair of directive Backward. -/
  speedBwd : Int × Int
  /-- `SPEED_STOP`: the pair of directive Stop. -/
  speedStop : Int × Int
  /-- `BYTE_FWD`: the command byte of Forward. -/
  byteFwd : Byte
  /-- `BYTE_BWD`: the command byte of Backward. -/
  byteBwd : Byte
  /-- `BYTE_STOP`: the command byte of Stop. -/
  byteStop : Byte
  /-- `BAUD`: serial link rate, a fact of the environment only (R56). -/
  baud : Nat
deriving DecidableEq, Repr

namespace Config

/-- A speed pair both of whose elements lie in [`PCT_MIN`, `PCT_MAX`]. -/
abbrev InRange (cfg : Config) (p : Int × Int) : Prop :=
  (cfg.pctMin ≤ p.1 ∧ p.1 ≤ cfg.pctMax) ∧ (cfg.pctMin ≤ p.2 ∧ p.2 ≤ cfg.pctMax)

/-- The constraints among the parameters (R8). -/
abbrev Constraints (cfg : Config) : Prop :=
  cfg.pctMin = -cfg.pctMax ∧ (cfg.pctDen : Int) = cfg.pctMax ∧ 0 < cfg.pctMax ∧
  cfg.carrierTop < 2 ^ countWidth ∧ cfg.pctMax < 2 ^ (speedWidth - 1) ∧ speedWidth ≤ operandWidth ∧
  cfg.InRange cfg.speedFwd ∧ cfg.InRange cfg.speedBwd ∧ cfg.InRange cfg.speedStop ∧
  cfg.byteFwd ≠ cfg.byteBwd ∧ cfg.byteFwd ≠ cfg.byteStop ∧ cfg.byteBwd ≠ cfg.byteStop ∧
  cfg.clockDivider = 1

/-- Whether a configuration meets the constraints, so that the rules hold (R8). -/
def legal (cfg : Config) : Bool :=
  decide cfg.Constraints

/-- The same as a proposition. -/
abbrev Legal (cfg : Config) : Prop :=
  cfg.legal = true

/-- The configuration the machine is built with: the defaults of R7 (command bytes: ASCII, R63). -/
def built : Config :=
  { pctMin := -100, pctMax := 100, pctDen := 100, carrierTop := 6249, clockDivider := 1,
    pwmNominal := 20000, speedFwd := (20, 20), speedBwd := (-20, -20), speedStop := (0, 0),
    byteFwd := 0x46, byteBwd := 0x42, byteStop := 0x53, baud := 9600 }

/-- `F_CLK`, the frequency of `clk` in Hz: OPEN in R7 and R137 (decision D17), so a constant with no body. -/
opaque fClk : Rat

/-! The free values of R170: what an element the rule calls unspecified holds after the `n`-th `rst` edge
(log entry 2). -/

/-- `SPEED[c]` after reset. -/
opaque freeSpeed : Nat → ChannelId → SpeedWord

/-- `DIR[c]` after reset. -/
opaque freeDir : Nat → ChannelId → Bool

/-- `DUTY[c]` after reset. -/
opaque freeDuty : Nat → ChannelId → Count

/-- `TOP[c]` after reset. -/
opaque freeTop : Nat → ChannelId → Count

/-- `DIV[c]` after reset. -/
opaque freeDiv : Nat → ChannelId → Rat

/-- `ACT[c]` after reset. -/
opaque freeAct : Nat → ChannelId → Count

/-- `ECHO_BYTE` after reset. -/
opaque freeEchoByte : Nat → Byte

end Config

end Sys2Proof
end

