-- ==== Sys2Proof/Syntax.lean ====
section
/-! DEFINITION. The operations (`30_encoding.md` R60), the directives (R62, R110), the pseudo-operations (R73) and the
request as the port carries it (R42, R66). -/

namespace Sys2Proof

/-- One constructor per row of `spec/opcode_table.json`. SET_SPEED takes mathematical integers (R69, R98): the port
width only limits which of them can be presented, and `Instr.WellFormed` says which. -/
inductive Instr where
  /-- `NOP` (R117). -/
  | nop
  /-- `CMD 'F'` (R113). -/
  | cmdF
  /-- `CMD 'B'` (R114). -/
  | cmdB
  /-- `CMD 'S'` (R115). -/
  | cmdS
  /-- `CMD b` with any other byte (R116). -/
  | cmdUnknown (b : Byte)
  /-- `SET_SPEED l, r` (R98). -/
  | setSpeed (l r : Int)
  /-- `INIT` (R96). -/
  | init
deriving DecidableEq, Repr

/-- The decoder's closed set of results (R62, R110). A value inside one CMD, never stored (R28). -/
inductive Directive where
  | forward
  | backward
  | stop
  | unknown (b : Byte)
deriving DecidableEq, Repr

/-- The shorthands of R73. -/
inductive PseudoOp where
  | forward
  | backward
  | stop
deriving DecidableEq, Repr

/-- The one operation a shorthand expands to (R73). -/
def PseudoOp.expand : PseudoOp → Instr
  | .forward => .cmdF
  | .backward => .cmdB
  | .stop => .cmdS

/-- The request fields at the port (R42). -/
structure Request where
  /-- `req_op` -/
  op : BitVec 2
  /-- `req_byte` -/
  byte : Byte
  /-- `req_left` -/
  left : Operand
  /-- `req_right` -/
  right : Operand
deriving DecidableEq, Repr

end Sys2Proof
end

