-- ==== Sys2Proof/WellFormed.lean ====
section
/-! DEFINITION. Which operations a request word can present: the SET_SPEED operands fit the port's two's complement
fields (`30_encoding.md` R69), and the byte of CMD_UNKNOWN is none of the three command bytes (R116). -/

namespace Sys2Proof

/-- `v` is the value of some `W`-bit two's complement field (R69). -/
abbrev FitsOperand (v : Int) : Prop :=
  -(2 ^ (operandWidth - 1)) ≤ v ∧ v < 2 ^ (operandWidth - 1)

/-- The check: the operations that some request word stands for. -/
def Instr.wellFormed (i : Instr) : Bool :=
  match i with
  | .nop => true
  | .cmdF => true
  | .cmdB => true
  | .cmdS => true
  | .cmdUnknown b => decide (b ≠ Config.built.byteFwd ∧ b ≠ Config.built.byteBwd ∧ b ≠ Config.built.byteStop)
  | .setSpeed l r => decide (FitsOperand l ∧ FitsOperand r)
  | .init => true

/-- The operations that some request word stands for, as a proposition. -/
abbrev Instr.WellFormed (i : Instr) : Prop :=
  i.wellFormed = true

end Sys2Proof
end

