-- ==== Sys2Proof/Decode.lean ====
section
/-! DEFINITION. The command byte decoder (`30_encoding.md` R62, `42_command_loop.md` R110), the request word decoder
(R66 to R71), and after them the encoder, written from the same rules. -/

namespace Sys2Proof

/-- `decode(b)`: total, compares the whole byte (R62, R64, R110). -/
def decodeDirective (cfg : Config) (b : Byte) : Directive :=
  if b = cfg.byteFwd then .forward
  else if b = cfg.byteBwd then .backward
  else if b = cfg.byteStop then .stop
  else .unknown b

/-- The four cases of `CMD b` (R60, R71). -/
def commandInstr (b : Byte) : Instr :=
  match decodeDirective Config.built b with
  | .forward => .cmdF
  | .backward => .cmdB
  | .stop => .cmdS
  | .unknown x => .cmdUnknown x

/-- The operation codes of R67. -/
def opNop : BitVec 2 := 0b00

/-- `CMD` (R67). -/
def opCmd : BitVec 2 := 0b01

/-- `SET_SPEED` (R67). -/
def opSetSpeed : BitVec 2 := 0b10

/-- `INIT` (R67). -/
def opInit : BitVec 2 := 0b11

/-- The decoding procedure on the port's fields (R71); fields the operation does not use are ignored (R68);
operands are the two's complement readings of their fields (R69). -/
def decodeRequest (r : Request) : Instr :=
  if r.op = opNop then .nop
  else if r.op = opCmd then commandInstr r.byte
  else if r.op = opSetSpeed then .setSpeed r.left.toInt r.right.toInt
  else .init

/-- The fields of a packed word: 73:72 op, 71:64 byte, 63:32 left, 31:0 right (R66). -/
def unpackRequest (w : ReqWord) : Request :=
  { op := w.extractLsb' 72 2, byte := w.extractLsb' 64 8, left := w.extractLsb' 32 32, right := w.extractLsb' 0 32 }

/-- `{req_op, req_byte, req_left, req_right}` (R66). -/
def packRequest (r : Request) : ReqWord :=
  r.op ++ r.byte ++ r.left ++ r.right

/-- Decoding of a packed request word: every one of the 2^74 words has a meaning (R70). -/
def decodeWord (w : ReqWord) : Instr :=
  decodeRequest (unpackRequest w)

/-- Why a number is no request word. -/
inductive DecodeError where
  /-- The number has a bit set above bit 73: R66 gives a request 74 bits, so it is no request word. -/
  | widerThanRequestWord
deriving DecidableEq, Repr

/-- Decoding of any number, rejecting by name what is wider than a request word. -/
def decodeNat (n : Nat) : Except DecodeError Instr :=
  if n < 2 ^ 74 then .ok (decodeWord (BitVec.ofNat 74 n)) else .error .widerThanRequestWord

/-- What the decoder reads from the row bits `w`, taken as `nbits` bits with zeros above. A request is one parallel
word (R46, R66), so the table's numbering is the word's own. -/
def decodeTableWord (nbits w : Nat) : Option Instr :=
  match decodeNat (w % 2 ^ nbits) with
  | .ok i => some i
  | .error _ => none

/-- The canonical request of an operation: unused fields are zero (R68). -/
def encodeRequest (i : Instr) : Request :=
  match i with
  | .nop => { op := opNop, byte := 0, left := 0, right := 0 }
  | .cmdF => { op := opCmd, byte := Config.built.byteFwd, left := 0, right := 0 }
  | .cmdB => { op := opCmd, byte := Config.built.byteBwd, left := 0, right := 0 }
  | .cmdS => { op := opCmd, byte := Config.built.byteStop, left := 0, right := 0 }
  | .cmdUnknown b => { op := opCmd, byte := b, left := 0, right := 0 }
  | .setSpeed l r => { op := opSetSpeed, byte := 0, left := BitVec.ofInt operandWidth l, right := BitVec.ofInt operandWidth r }
  | .init => { op := opInit, byte := 0, left := 0, right := 0 }

/-- The canonical request word of a well-formed operation (R66, R68). -/
def encode (i : Instr) : ReqWord :=
  packRequest (encodeRequest i)

end Sys2Proof
end

