-- ==== Sys2Proof/Machine/State.lean ====
section
/-! DEFINITION. The state of PWMDIR (`10_state.md` R20), the trace (`20_memory.md` R51), the host's pending inputs, the
reasons a step can stop, and the state after reset (R37, R170). -/

namespace Sys2Proof.Machine

/-- The per-channel elements of R20. -/
structure Channel where
  /-- `SPEED[c]`, two's complement (R21). -/
  speed : SpeedWord
  /-- `DIR[c]`: true = pin high = forward polarity (R22). -/
  dir : Bool
  /-- `DUTY[c]` (R23). -/
  duty : Count
  /-- `TOP[c]` (R24). -/
  top : Count
  /-- `DIV[c]` (R24). -/
  div : Rat
  /-- `CNT[c]`, the PWM counter (R27, R131). -/
  cnt : Count
  /-- `ACT[c]`, the compare value of the current carrier period (R27, R131). -/
  act : Count
deriving DecidableEq, Repr

/-- The events of the output trace (R51). -/
inductive Event where
  /-- `Motor(dirL, dirR, dutyL, dutyR)`: an operation wrote the motor registers. -/
  | motor (dirL dirR : Bool) (dutyL dutyR : Count)
  /-- `Echo(b)`: an echo byte was transferred. -/
  | echo (b : Byte)
deriving DecidableEq, Repr

/-- The input signals at one rising edge of `clk` (R41 to R43). -/
structure EdgeInput where
  /-- `rst` -/
  rst : Bool
  /-- The request fields when `req_valid = 1`, none when `req_valid = 0`. -/
  req : Option Request
  /-- `echo_ready` -/
  echoReady : Bool
deriving DecidableEq, Repr

/-- An edge at which the host does nothing (log entry 3). -/
def EdgeInput.idle : EdgeInput :=
  { rst := false, req := none, echoReady := false }

/-- The complete state: R20's table, the trace, and the model's own fields for the host and the free values. -/
structure State where
  /-- The left channel's elements. -/
  left : Channel
  /-- The right channel's elements. -/
  right : Channel
  /-- `INIT_DONE` (R25). -/
  initDone : Bool
  /-- `DIR_OE` (R26). -/
  dirOe : Bool
  /-- `PWM_EN` (R26). -/
  pwmEn : Bool
  /-- `ECHO_PENDING` (R27). -/
  echoPending : Bool
  /-- `ECHO_BYTE` (R27). -/
  echoByte : Byte
  /-- The output trace, oldest event first (R51). -/
  trace : List Event
  /-- The model's own: the inputs at the coming edges, the next one first (log entry 3). -/
  host : List EdgeInput
  /-- The model's own: the request presented and not accepted at the last edge (log entry 5). -/
  held : Option Request
  /-- The model's own: how many `rst` edges there have been, the free values' argument (log entry 2). -/
  resets : Nat
deriving DecidableEq, Repr

/-- The hardware raises no fault: R11, R150 ("nothing is surfaced as a fault"). No constructor. -/
inductive Fault where
deriving DecidableEq, Repr

/-- Where the spec gives no next state (R157), and the host conduct it gives no move (R58). -/
inductive Refusal where
  /-- Raised by exec for an instruction that has no meaning yet. Safe: nothing is claimed of it. -/
  | notModelled (mnemonic : String)
  /-- Raised by INIT when `INIT_DONE = 1` (R97, R157): "re-invocation is undefined (not supported)". Safe. -/
  | reinit
  /-- Raised by SET_SPEED and every CMD when `INIT_DONE = 0` (R102, R123, R157). Safe. -/
  | beforeInit
  /-- Raised by INIT, SET_SPEED and every CMD of a machine built with a configuration that breaks R8 (R157). Safe. -/
  | badConfig
  /-- Raised by step when the host changes or withdraws a request that waits, which R58 lists as "assumed never (which a
  model gives no move)" (log entry 5, also for the DESIGN CHOICE that a change in unused fields alone counts). Safe. -/
  | requestChanged
deriving DecidableEq, Repr

/-- The element `SPEED`, `DIR`, … of a channel (R9: a channel index ranges over L and R). -/
def State.ch (s : State) (c : ChannelId) : Channel :=
  match c with
  | .L => s.left
  | .R => s.right

/-- A channel right after reset: `CNT` is 0 (R37); the others are unspecified there and hold the values that log entry
1 names. -/
def Channel.reset : Channel :=
  { speed := 0, dir := false, duty := 0, top := 0, div := 1, cnt := 0, act := 0 }

/-- The machine right after hardware reset (R37, R170). The host has presented nothing (log entry 4). -/
def State.reset : State :=
  { left := Channel.reset, right := Channel.reset, initDone := false, dirOe := false, pwmEn := false,
    echoPending := false, echoByte := 0, trace := [], host := [], held := none, resets := 0 }

end Sys2Proof.Machine
end

