-- ==== Sys2Proof/Machine/Flags.lean ====
section
/-! DEFINITION. PWMDIR has no condition codes (`10_state.md` R32). Its one computed flag is the polarity flag `DIR[c]`
(R22), an output pin value that no operation reads. -/

namespace Sys2Proof.Machine

/-- Direction polarity of a clamped percent: high exactly when it is non-negative, so zero is forward (R81; conflict C1
follows the same reading). -/
def polarity (c : Int) : Bool :=
  decide (0 ≤ c)

end Sys2Proof.Machine
end

