-- ==== Sys2Proof/Machine/Operands.lean ====
section
/-! DEFINITION. The operands of the motor operations: the clamp and magnitude of `40_duty_mapper.md` R80, R82 and the
directive to speed table of `42_command_loop.md` R111. (The two's complement reading of the port's fields, R69, is the
decoder's.) -/

namespace Sys2Proof.Machine

/-- `clamp(v, lo, hi)` (R10, R80): saturates, both bounds inclusive. -/
def clamp (v lo hi : Int) : Int :=
  if v < lo then lo else if hi < v then hi else v

/-- `abs` of a clamped percent (R82). -/
def magnitude (c : Int) : Nat :=
  c.natAbs

/-- The directive to speed table (R111): the pair to dispatch, or none for Unknown. -/
def directiveSpeeds (cfg : Config) (d : Directive) : Option (Int × Int) :=
  match d with
  | .forward => some cfg.speedFwd
  | .backward => some cfg.speedBwd
  | .stop => some cfg.speedStop
  | .unknown _ => none

end Sys2Proof.Machine
end

