-- ==== Sys2Proof/Machine/Mapper.lean ====
section
/-! DEFINITION. The speed percent to duty-cycle mapper (`40_duty_mapper.md` R80 to R90): a pure, total function. -/

namespace Sys2Proof.Machine

/-- The three results of `MAP`. -/
structure Mapped where
  /-- The clamped percent. -/
  percent : Int
  /-- The direction bit. -/
  dir : Bool
  /-- The duty level. -/
  duty : Nat
deriving DecidableEq, Repr

/-- `floor_div(T * m, PCT_DEN)`: multiply first, on the exact product (R83, R85). -/
def dutyLevel (cfg : Config) (top m : Nat) : Nat :=
  top * m / cfg.pctDen

/-- `MAP(p, T)` in the order of R84: clamp, then polarity and magnitude of the clamped value, then duty. -/
def mapPercent (cfg : Config) (p : Int) (top : Nat) : Mapped :=
  let c := clamp p cfg.pctMin cfg.pctMax
  { percent := c, dir := polarity c, duty := dutyLevel cfg top (magnitude c) }

/-- A channel's `DIR`, `DUTY` and `SPEED` written together from one mapped percent (R29, R98). -/
def Channel.drive (ch : Channel) (m : Mapped) : Channel :=
  { ch with dir := m.dir, duty := BitVec.ofNat countWidth m.duty, speed := BitVec.ofInt speedWidth m.percent }

end Sys2Proof.Machine
end

