-- ==== Sys2Proof/Machine/Ops.lean ====
section
/-! DEFINITION. The shared operations over the state: the trace, the echo register, the refusal gates, the motor write,
and the reset edge. PWMDIR takes no exception and returns from none (`60_exceptions.md` R150, R154, R155); the one
event that overrides the operations is `rst` (`70_reset_and_hazards.md` R170, R171). -/

namespace Sys2Proof.Machine

/-- `emit E` (R10, R51). -/
def State.emit (s : State) (e : Event) : State :=
  { s with trace := s.trace ++ [e] }

/-- `Motor(dirL, dirR, dutyL, dutyR)` carrying the values now in the motor registers (R51). -/
def State.emitMotor (s : State) : State :=
  s.emit (.motor s.left.dir s.right.dir s.left.duty s.right.duty)

/-- The accepting edge of a CMD: `ECHO_BYTE <- b`, `ECHO_PENDING <- 1` (R118). -/
def State.sendEcho (s : State) (b : Byte) : State :=
  { s with echoByte := b, echoPending := true }

/-- The echo port transfers the pending byte: `Echo(ECHO_BYTE)` is emitted and `ECHO_PENDING <- 0` (R43). -/
def State.takeEcho (s : State) : State :=
  if s.echoPending then { s.emit (.echo s.echoByte) with echoPending := false } else s

/-- An operation that has a meaning only after INIT (R102, R123, R157), on a machine built legally (R8, R157). -/
def whenInitialised (cfg : Config) (s : State) (k : State) : Host.Outcome State Fault Refusal :=
  if cfg.legal = false then .refused .badConfig
  else if s.initDone = false then .refused .beforeInit
  else .next k

/-- The writes of `SET_SPEED l, r` (R98): each channel from its own operand and its own TOP, then one Motor event. -/
def setSpeeds (cfg : Config) (l r : Int) (s : State) : State :=
  State.emitMotor
    { s with left := s.left.drive (mapPercent cfg l s.left.top.toNat),
             right := s.right.drive (mapPercent cfg r s.right.top.toNat) }

/-- What INIT writes to a channel (R96): the carrier parameters, zero duty, forward polarity, speed 0, counter and
compare value 0. -/
def Channel.initialised (cfg : Config) : Channel :=
  { speed := 0, dir := true, duty := 0, top := BitVec.ofNat countWidth cfg.carrierTop, div := cfg.clockDivider,
    cnt := 0, act := 0 }

/-- The writes of `INIT` (R96). -/
def initialised (cfg : Config) (s : State) : State :=
  State.emitMotor
    { s with left := Channel.initialised cfg, right := Channel.initialised cfg,
             dirOe := true, pwmEn := true, initDone := true }

/-- `INIT` (R96), refused when it has been done (R97, R157). -/
def initialise (cfg : Config) (s : State) : Host.Outcome State Fault Refusal :=
  if cfg.legal = false then .refused .badConfig
  else if s.initDone = true then .refused .reinit
  else .next (initialised cfg s)

/-- `SET_SPEED l, r` (R98), refused before INIT (R102). -/
def setSpeed (cfg : Config) (l r : Int) (s : State) : Host.Outcome State Fault Refusal :=
  whenInitialised cfg s (setSpeeds cfg l r s)

/-- The dispatch of a directive: the table's SET_SPEED, or nothing for Unknown (R111, R112). -/
def dispatch (cfg : Config) (d : Directive) (s : State) : State :=
  match directiveSpeeds cfg d with
  | some p => setSpeeds cfg p.1 p.2 s
  | none => s

/-- `CMD b` (R112): decode, dispatch, echo, in that order; refused before INIT for every byte (R123). -/
def command (cfg : Config) (b : Byte) (s : State) : Host.Outcome State Fault Refusal :=
  whenInitialised cfg s ((dispatch cfg (decodeDirective cfg b) s).sendEcho b)

/-- A channel after a `rst` edge: `CNT <- 0`, every other element unspecified, that is a free value (R170, log
entry 2). -/
def Channel.unspecified (n : Nat) (c : ChannelId) : Channel :=
  { speed := Config.freeSpeed n c, dir := Config.freeDir n c, duty := Config.freeDuty n c, top := Config.freeTop n c,
    div := Config.freeDiv n c, cnt := 0, act := Config.freeAct n c }

/-- A rising edge of `clk` with `rst = 1` (R170): a pending echo is dropped without an event and the trace stays
(R171, log entry 6). -/
def State.resetEdge (s : State) : State :=
  { s with left := Channel.unspecified s.resets .L, right := Channel.unspecified s.resets .R,
           initDone := false, dirOe := false, pwmEn := false, echoPending := false,
           echoByte := Config.freeEchoByte s.resets, resets := s.resets + 1 }

end Sys2Proof.Machine
end

