-- ==== Sys2Proof/Machine/Command.lean ====
section
/-! DEFINITION. The meanings of the command front end's operations: CMD in its four cases, and NOP
(`42_command_loop.md`). -/

namespace Sys2Proof.Machine

/-- `NOP`: the identity, in any state (R117). -/
def execNop (s : State) : Host.Outcome State Fault Refusal :=
  .next s

/-- `CMD 'F'` (R113): the general rule R112 at its byte. -/
def execCmdF (s : State) : Host.Outcome State Fault Refusal :=
  command Config.built Config.built.byteFwd s

/-- `CMD 'B'` (R114). -/
def execCmdB (s : State) : Host.Outcome State Fault Refusal :=
  command Config.built Config.built.byteBwd s

/-- `CMD 'S'` (R115). -/
def execCmdS (s : State) : Host.Outcome State Fault Refusal :=
  command Config.built Config.built.byteStop s

/-- `CMD b` with `b` none of the command bytes (R116). -/
def execCmdUnknown (b : Byte) (s : State) : Host.Outcome State Fault Refusal :=
  command Config.built b s

end Sys2Proof.Machine
end

