-- ==== Sys2Proof/Machine/Motor.lean ====
section
/-! DEFINITION. The meanings of the motor controller's operations: INIT and SET_SPEED (`41_motor_driver.md`). -/

namespace Sys2Proof.Machine

/-- `INIT` (R96, R97). -/
def execInit (s : State) : Host.Outcome State Fault Refusal :=
  initialise Config.built s

/-- `SET_SPEED l, r` (R98, R102). -/
def execSetSpeed (l r : Int) (s : State) : Host.Outcome State Fault Refusal :=
  setSpeed Config.built l r s

end Sys2Proof.Machine
end

