-- ==== Sys2Proof/Machine/Dispatch.lean ====
section
/-! DEFINITION. One arm per operation (`30_encoding.md` R60). -/

namespace Sys2Proof.Machine

def exec (i : Instr) (s : State) : Host.Outcome State Fault Refusal :=
  match i with
  | .nop => Sys2Proof.Machine.execNop s
  | .cmdF => Sys2Proof.Machine.execCmdF s
  | .cmdB => Sys2Proof.Machine.execCmdB s
  | .cmdS => Sys2Proof.Machine.execCmdS s
  | .cmdUnknown b => Sys2Proof.Machine.execCmdUnknown b s
  | .setSpeed l r => Sys2Proof.Machine.execSetSpeed l r s
  | .init => Sys2Proof.Machine.execInit s

end Sys2Proof.Machine
end

