-- ==== Sys2Proof/Machine/Waveform.lean ====
section
/-! DEFINITION. The PWM waveform generator and the direction pins (`43_pwm_generator.md` R131 to R140): the counter
tick of every clock edge, the pins, and the frequency and ratio the numbers give. -/

namespace Sys2Proof.Machine

/-- `TICK(c)` (R132): at `TOP` the counter wraps and the compare value takes over the duty level. -/
def Channel.tick (ch : Channel) : Channel :=
  if ch.cnt = ch.top then { ch with cnt := 0, act := ch.duty } else { ch with cnt := ch.cnt + 1 }

/-- The tick of both channels while `PWM_EN = 1`; with `PWM_EN = 0` the counters hold (R132). -/
def State.tick (s : State) : State :=
  if s.pwmEn then { s with left := s.left.tick, right := s.right.tick } else s

/-- `dir_c`: `DIR[c]` while `DIR_OE = 1`, else not driven (R44, R135). -/
def State.dirPin (s : State) (c : ChannelId) : Option Bool :=
  if s.dirOe then some (s.ch c).dir else none

/-- `pwm_c`: high exactly while `CNT[c] < ACT[c]` when `PWM_EN = 1`, else not driven (R44, R133). -/
def State.pwmPin (s : State) (c : ChannelId) : Option Bool :=
  if s.pwmEn then some (decide ((s.ch c).cnt.toNat < (s.ch c).act.toNat)) else none

/-- One carrier period in clock cycles: `TOP + 1` (R132). -/
def periodCycles (top : Nat) : Nat :=
  top + 1

/-- `f_pwm = F_CLK / (CLOCK_DIVIDER * (CARRIER_TOP + 1))` (R137). -/
def carrierFrequency (cfg : Config) (fClk : Rat) : Rat :=
  fClk / (cfg.clockDivider * (periodCycles cfg.carrierTop : Nat))

/-- The machine's own carrier frequency, over the open parameter `F_CLK` (R137). -/
def builtCarrierFrequency : Rat :=
  carrierFrequency Config.built Config.fClk

/-- The fraction of a period with compare value `a` during which the pin is high: `a / (TOP + 1)` (R138). -/
def dutyRatio (a top : Nat) : Rat :=
  (a : Rat) / (periodCycles top : Nat)

end Sys2Proof.Machine
end

