-- ==== Sys2Proof/Machine/Ports.lean ====
section
/-! DEFINITION. The ports (`20_memory.md` R41 to R45) and what one edge does with them. -/

namespace Sys2Proof.Machine

/-- `req_ready = 1` exactly when `rst = 0` and `ECHO_PENDING = 0` (R42). -/
def State.reqReady (s : State) (rst : Bool) : Bool :=
  !rst && !s.echoPending

/-- `echo_valid = ECHO_PENDING` with `echo_byte = ECHO_BYTE`, which is meaningful only while valid (R37, R43; log
entry 8). -/
def State.echoPort (s : State) : Option Byte :=
  if s.echoPending then some s.echoByte else none

/-- The status outputs (R45). -/
structure Status where
  /-- `st_speed_l`, `st_speed_r` -/
  speedL : SpeedWord
  speedR : SpeedWord
  /-- `st_duty_l`, `st_duty_r` -/
  dutyL : Count
  dutyR : Count
  /-- `st_dir_l`, `st_dir_r` -/
  dirL : Bool
  dirR : Bool
deriving DecidableEq, Repr

/-- The status outputs, valid only while `st_init_done = 1`; none stands for `st_init_done = 0` (R45). -/
def State.status (s : State) : Option Status :=
  if s.initDone then
    some { speedL := s.left.speed, speedR := s.right.speed, dutyL := s.left.duty, dutyR := s.right.duty,
           dirL := s.left.dir, dirR := s.right.dir }
  else none

/-- Everything PWMDIR shows to the outside between two edges (R43 to R45, R51). -/
structure Outputs where
  dirPinL : Option Bool
  dirPinR : Option Bool
  pwmPinL : Option Bool
  pwmPinR : Option Bool
  status : Option Status
  echo : Option Byte
  ready : Bool
  trace : List Event
deriving DecidableEq, Repr

/-- The outputs of a state, with `rst = 0`. -/
def State.outputs (s : State) : Outputs :=
  { dirPinL := s.dirPin .L, dirPinR := s.dirPin .R, pwmPinL := s.pwmPin .L, pwmPinR := s.pwmPin .R,
    status := s.status, echo := s.echoPort, ready := s.reqReady false, trace := s.trace }

/-- The inputs at the coming edge; past the end of the list the host does nothing (log entry 3). -/
def State.edgeInput (s : State) : EdgeInput :=
  s.host.headD EdgeInput.idle

/-- The state with the coming edge's inputs taken and `held` recording the request, if any, that this edge leaves
unaccepted (R42, log entry 5). -/
def State.advance (s : State) (waiting : Option Request) : State :=
  { s with host := s.host.tail, held := waiting }

/-- The host still presents the request it left waiting, if there is one (R42, R58, R186; log entry 5).
DESIGN CHOICE: every field counts, also one that the waiting operation does not use. R42 holds "the request signals"
stable, while R68 and R186 let an unused field hold anything, and the spec does not say which of the two governs a
change in unused fields alone. Safe: it is refused. -/
def State.keepsRequest (s : State) (req : Option Request) : Bool :=
  match s.held with
  | none => true
  | some r => decide (req = some r)

/-- The request accepted at an edge with `rst = 0`: the one presented, if `req_ready = 1` (R42). -/
def State.accepted (s : State) (e : EdgeInput) : Option Request :=
  if s.reqReady e.rst then e.req else none

/-- An edge with `rst = 0` that accepts nothing: the counters tick, and a pending echo is transferred if `echo_ready`
(R43, R132). -/
def State.quietEdge (s : State) (echoReady : Bool) : State :=
  if echoReady then s.tick.takeEcho else s.tick

end Sys2Proof.Machine
end

