-- ==== Sys2Proof/Machine/Step.lean ====
section
/-! DEFINITION. One step: one rising edge of `clk` (`20_memory.md` R41, R57; priority `60_exceptions.md` R153). -/

namespace Sys2Proof.Machine

/-- One rising edge of `clk` with the inputs the host has for it. `rst` overrides everything (R153, R171). Otherwise the
counters tick and, if a request is accepted (R42), the operation it decodes to is performed; both read the values
before the edge, and where both write an element the operation's write wins (R153, log entry 7). -/
def step (s : State) : Host.Outcome State Fault Refusal :=
  if s.edgeInput.rst then .next (s.advance s.edgeInput.req).resetEdge
  else if s.keepsRequest s.edgeInput.req = false then .refused .requestChanged
  else
    match s.accepted s.edgeInput with
    | some r => exec (decodeRequest r) (s.advance none).tick
    | none => .next ((s.advance s.edgeInput.req).quietEdge s.edgeInput.echoReady)

/-- `s` with the instruction whose word is `w` presented at the very next edge: the request port ready, no request
waiting (log entry 4). -/
def State.withFetchWord (s : State) (nbits w : Nat) : State :=
  { s with
    host := { rst := false, req := some (unpackRequest (BitVec.ofNat 74 (w % 2 ^ nbits))), echoReady := false } :: s.host,
    held := none, echoPending := false }

end Sys2Proof.Machine
end

