-- ==== Sys2Proof/Machine/Text.lean ====
section
/-! DEFINITION. The textual syntax of operation sequences (`30_encoding.md` R72) and the shorthands (R73): a total
reader of one line. -/

namespace Sys2Proof.Machine

/-- What one line of text is. -/
inductive SourceLine where
  /-- Nothing but white space and a comment. -/
  | blank
  /-- One operation (R72). -/
  | operation (i : Instr)
  /-- No line of R72's syntax. -/
  | malformed
deriving DecidableEq, Repr

/-- Drops leading blanks. -/
def dropBlanks : List Char → List Char
  | [] => []
  | c :: cs => if c = ' ' ∨ c = '\t' then dropBlanks cs else c :: cs

/-- Drops blanks at both ends. -/
def trimBlanks (cs : List Char) : List Char :=
  (dropBlanks (dropBlanks cs).reverse).reverse

/-- Drops a comment: a `;` that is not the character of a quoted byte starts one (R72). -/
def dropComment : List Char → List Char
  | [] => []
  | '\'' :: c :: '\'' :: cs => '\'' :: c :: '\'' :: dropComment cs
  | ';' :: _ => []
  | c :: cs => c :: dropComment cs

/-- The text after the word `k` and at least one blank. -/
def afterWord : List Char → List Char → Option (List Char)
  | [], c :: cs => if c = ' ' ∨ c = '\t' then some (dropBlanks cs) else none
  | k :: ks, c :: cs => if k = c then afterWord ks cs else none
  | _, [] => none

/-- The value of a digit, by its place in the ASCII table: column 3 has 0 to 9 in its first ten rows, columns 4 and 6
have the letters of the values 10 to 15 in rows 1 to 6. -/
def digitValue (c : Char) : Option Nat :=
  let row := c.toNat % 16
  match c.toNat / 16 with
  | 3 => if row < 10 then some row else none
  | 4 | 6 => if 0 < row ∧ row < 7 then some (row + 9) else none
  | _ => none

/-- Digits of a radix, most significant first, after a value `acc`. -/
def readNumber (radix : Nat) : Nat → List Char → Option Nat
  | acc, [] => some acc
  | acc, c :: cs =>
    match digitValue c with
    | some d => if d < radix then readNumber radix (acc * radix + d) cs else none
    | none => none

/-- At least one decimal digit. -/
def readNat (cs : List Char) : Option Nat :=
  match cs with
  | [] => none
  | _ :: _ => readNumber 10 0 cs

/-- A signed decimal integer (R72). -/
def readInt (cs : List Char) : Option Int :=
  match cs with
  | '-' :: ds => (readNat ds).map (fun n => -(n : Int))
  | '+' :: ds => (readNat ds).map (fun n => (n : Int))
  | ds => (readNat ds).map (fun n => (n : Int))

/-- The operand of CMD: a quoted printable ASCII character or a two-digit hexadecimal byte (R72). -/
def readByte (cs : List Char) : Option Byte :=
  match cs with
  | ['\'', c, '\''] => if ' ' ≤ c ∧ c ≤ '~' then some (BitVec.ofNat 8 c.toNat) else none
  | ['0', 'x', h, l] => (readNumber 16 0 [h, l]).map (BitVec.ofNat 8)
  | _ => none

/-- The texts on the two sides of the first comma. -/
def splitComma : List Char → Option (List Char × List Char)
  | [] => none
  | c :: cs => if c = ',' then some ([], cs) else (splitComma cs).map (fun p => (c :: p.1, p.2))

/-- The operands `<l>, <r>` of SET_SPEED (R72). -/
def readPair (cs : List Char) : Option (Int × Int) :=
  match splitComma cs with
  | none => none
  | some (a, b) =>
    match readInt (trimBlanks a), readInt (trimBlanks b) with
    | some l, some r => some (l, r)
    | _, _ => none

/-- An operation with operands. -/
def readOperands (cs : List Char) : Option Instr :=
  match afterWord ['C', 'M', 'D'] cs with
  | some rest => (readByte rest).map commandInstr
  | none =>
    match afterWord ['S', 'E', 'T', '_', 'S', 'P', 'E', 'E', 'D'] cs with
    | some rest => (readPair rest).map (fun p => .setSpeed p.1 p.2)
    | none => none

/-- One operation or shorthand, without blanks around it (R72, R73). -/
def readOperation (cs : List Char) : Option Instr :=
  if cs = ['N', 'O', 'P'] then some .nop
  else if cs = ['I', 'N', 'I', 'T'] then some .init
  else if cs = ['F', 'O', 'R', 'W', 'A', 'R', 'D'] then some PseudoOp.forward.expand
  else if cs = ['B', 'A', 'C', 'K', 'W', 'A', 'R', 'D'] then some PseudoOp.backward.expand
  else if cs = ['S', 'T', 'O', 'P'] then some PseudoOp.stop.expand
  else readOperands cs

/-- One line of text (R72). -/
def readLine (cs : List Char) : SourceLine :=
  match trimBlanks (dropComment cs) with
  | [] => .blank
  | body =>
    match readOperation body with
    | some i => .operation i
    | none => .malformed

/-- The request word of a line that is one operation the port can present. -/
def assembleLine (cs : List Char) : Option ReqWord :=
  match readLine cs with
  | .operation i => if i.wellFormed then some (encode i) else none
  | .blank => none
  | .malformed => none

end Sys2Proof.Machine
end

