-- ==== Sys2Proof/Machine/Loop.lean ====
section
/-! DEFINITION. The operation layer as runs of operations, and the host's canonical program: the source's Control Loop
(`42_command_loop.md` R119, `20_memory.md` R56, `70_reset_and_hazards.md` R172, R174). -/

namespace Sys2Proof.Machine

/-- One operation at the operation layer, its echo taken before anything else happens (R51, R112). -/
def operate (i : Instr) (s : State) : Host.Outcome State Fault Refusal :=
  match exec i s with
  | .next t => .next t.takeEcho
  | .fault f => .fault f
  | .refused r => .refused r

/-- Operations one after another, each entirely before the next (R51); the first refusal refuses the run (R157). -/
def runOps : List Instr → State → Host.Outcome State Fault Refusal
  | [], s => .next s
  | i :: is, s =>
    match operate i s with
    | .next t => runOps is t
    | .fault f => .fault f
    | .refused r => .refused r

/-- What the host makes of one poll of the Byte Source: `CMD b`, or `NOP` when no byte was pending (R56, R119). -/
def pollInstr (polled : Option Byte) : Instr :=
  match polled with
  | some b => commandInstr b
  | none => .nop

/-- The canonical program: INIT once, then one operation per poll (R119, R172). -/
def canonicalProgram (polls : List (Option Byte)) : List Instr :=
  .init :: polls.map pollInstr

/-- The operations accepted during the next `k` edges, in order (R42, R51). -/
def acceptedOps : Nat → State → List Instr
  | 0, _ => []
  | k + 1, s =>
    match step s with
    | .next t =>
      match (if s.edgeInput.rst then none else s.accepted s.edgeInput) with
      | some r => decodeRequest r :: acceptedOps k t
      | none => acceptedOps k t
    | .fault _ => []
    | .refused _ => []

/-- The end of a run (R174): the last operation has been accepted, so the host presents nothing more and no request
waits, and every echo has been taken. -/
def State.runOver (s : State) : Bool :=
  s.host.all (fun e => e.req.isNone) && s.held.isNone && !s.echoPending

/-- What a run leaves: the registers of `10_state.md` R20 and the trace (R174). -/
structure FinalState where
  left : Channel
  right : Channel
  initDone : Bool
  dirOe : Bool
  pwmEn : Bool
  echoPending : Bool
  echoByte : Byte
  trace : List Event
deriving DecidableEq, Repr

/-- The final state of a run, once it is over (R174). -/
def State.finalState (s : State) : Option FinalState :=
  if s.runOver then
    some { left := s.left, right := s.right, initDone := s.initDone, dirOe := s.dirOe, pwmEn := s.pwmEn,
           echoPending := s.echoPending, echoByte := s.echoByte, trace := s.trace }
  else none

end Sys2Proof.Machine
end

