-- ==== Sys2Proof/Safety.lean ====
section
/-! DEFINITION. The terms in which claims speak of good states and of runs: the invariant of `10_state.md` R29 with
R26, R37 and R139, the agreement of two states up to what the operation layer cannot see or what reset leaves
unspecified, and runs without a reset edge. -/

namespace Sys2Proof.Machine

/-- R29 (a) to (e) for one channel, and the ranges of `CNT` and `ACT` in R20's table, for a machine built with `cfg`. -/
structure ChannelInv (cfg : Config) (ch : Channel) : Prop where
  /-- (a) the lower bound -/
  speed_ge : cfg.pctMin ≤ ch.speed.toInt
  /-- (a) the upper bound -/
  speed_le : ch.speed.toInt ≤ cfg.pctMax
  /-- (b) -/
  duty_eq : ch.duty.toNat = ch.top.toNat * ch.speed.toInt.natAbs / cfg.pctDen
  /-- (c) -/
  duty_le : ch.duty.toNat ≤ ch.top.toNat
  /-- (d) -/
  dir_iff : ch.dir = true ↔ 0 ≤ ch.speed.toInt
  /-- (e) the carrier top -/
  top_eq : ch.top.toNat = cfg.carrierTop
  /-- (e) the clock divider -/
  div_eq : ch.div = cfg.clockDivider
  /-- R20: `CNT[c]` in [0, `TOP[c]`] -/
  cnt_le : ch.cnt.toNat ≤ ch.top.toNat
  /-- R20: `ACT[c]` in [0, `TOP[c]`] -/
  act_le : ch.act.toNat ≤ ch.top.toNat

/-- The machine's invariant: R29 and R139 once `INIT_DONE = 1`; before it the counters are 0 and no echo is pending
(R37); and `DIR_OE = PWM_EN = INIT_DONE` always (R26). -/
structure Inv (s : State) : Prop where
  /-- R26 -/
  dirOe_eq : s.dirOe = s.initDone
  /-- R26 -/
  pwmEn_eq : s.pwmEn = s.initDone
  /-- R29 for both channels -/
  channels : s.initDone = true → ∀ c, ChannelInv Config.built (s.ch c)
  /-- R139: the two carrier periods coincide -/
  phase : s.left.cnt = s.right.cnt
  /-- R37: the counters hold 0 until INIT -/
  cnt_zero : s.initDone = false → ∀ c, (s.ch c).cnt = 0
  /-- R37: an echo is pending only after a CMD, which needs INIT -/
  no_echo : s.initDone = false → s.echoPending = false

/-- Equal on the operation-layer elements of a channel (R20, column "layer"). -/
structure ChannelAgree (a b : Channel) : Prop where
  speed_eq : a.speed = b.speed
  dir_eq : a.dir = b.dir
  duty_eq : a.duty = b.duty
  top_eq : a.top = b.top
  div_eq : a.div = b.div

/-- Equal on everything the operation layer shows: its registers, the output enables, the echo and the trace; `CNT`,
`ACT` and the host's fields may differ (R6, R142, R174). -/
structure OpAgree (s t : State) : Prop where
  left : ChannelAgree s.left t.left
  right : ChannelAgree s.right t.right
  initDone_eq : s.initDone = t.initDone
  dirOe_eq : s.dirOe = t.dirOe
  pwmEn_eq : s.pwmEn = t.pwmEn
  echoPending_eq : s.echoPending = t.echoPending
  echoByte_eq : s.echoByte = t.echoByte
  trace_eq : s.trace = t.trace

/-- Equal but for the elements that reset leaves unspecified: the channels' other elements while `INIT_DONE = 0`, and
`ECHO_BYTE` while no echo is pending (R37, R170). -/
structure SpecifiedAgree (s t : State) : Prop where
  initDone_eq : s.initDone = t.initDone
  dirOe_eq : s.dirOe = t.dirOe
  pwmEn_eq : s.pwmEn = t.pwmEn
  cnt_eq : ∀ c, (s.ch c).cnt = (t.ch c).cnt
  channels_eq : s.initDone = true → s.left = t.left ∧ s.right = t.right
  echoPending_eq : s.echoPending = t.echoPending
  echoByte_eq : s.echoPending = true → s.echoByte = t.echoByte
  trace_eq : s.trace = t.trace
  host_eq : s.host = t.host
  held_eq : s.held = t.held
  resets_eq : s.resets = t.resets

/-- Equal in everything but the retained `SPEED` values (R21). -/
def EqualButSpeed (s t : State) : Prop :=
  { t with left := { t.left with speed := s.left.speed }, right := { t.right with speed := s.right.speed } } = s

/-- Two steps with the same outcome, next states related by `r`. -/
def SameOutcome (r : State → State → Prop) (a b : Host.Outcome State Fault Refusal) : Prop :=
  match a, b with
  | .next s, .next t => r s t
  | .refused x, .refused y => x = y
  | .fault x, .fault y => x = y
  | .next _, .refused _ => False
  | .next _, .fault _ => False
  | .refused _, .next _ => False
  | .refused _, .fault _ => False
  | .fault _, .next _ => False
  | .fault _, .refused _ => False

/-- None of the next `k` edges is a reset edge. -/
def NoReset (k : Nat) (s : State) : Prop :=
  ∀ e ∈ s.host.take k, e.rst = false

/-- The motor registers, which only the motor controller writes (R95). -/
structure MotorRegs where
  speedL : SpeedWord
  speedR : SpeedWord
  dirL : Bool
  dirR : Bool
  dutyL : Count
  dutyR : Count
deriving DecidableEq, Repr

/-- The motor registers of a state. -/
def State.motorRegs (s : State) : MotorRegs :=
  { speedL := s.left.speed, speedR := s.right.speed, dirL := s.left.dir, dirR := s.right.dir,
    dutyL := s.left.duty, dutyR := s.right.duty }

/-- A speed percent after the clamp, in the spec's own words: `lo` below the range, `hi` above it, else unchanged (R80). -/
def clampedPercent (p : Int) : Int :=
  max (-100) (min 100 p)

/-- What R98 says the operand `p` leaves in a channel: the clamped percent in `SPEED`, its sign in `DIR`, and
`floor(TOP * |percent| / 100)` in `DUTY`. -/
structure DrivenBy (p : Int) (old new : Channel) : Prop where
  speed : new.speed.toInt = clampedPercent p
  dir : new.dir = true ↔ 0 ≤ clampedPercent p
  duty : new.duty.toNat = old.top.toNat * (clampedPercent p).natAbs / 100

/-- A channel's elements other than `SPEED`, `DIR` and `DUTY` are as before. -/
structure KeepsRest (old new : Channel) : Prop where
  top : new.top = old.top
  div : new.div = old.div
  cnt : new.cnt = old.cnt
  act : new.act = old.act

/-- Every element outside the channels, the echo registers and the trace is as before. -/
structure KeepsControl (s t : State) : Prop where
  initDone : t.initDone = s.initDone
  dirOe : t.dirOe = s.dirOe
  pwmEn : t.pwmEn = s.pwmEn
  host : t.host = s.host
  held : t.held = s.held
  resets : t.resets = s.resets

/-- The echoed bytes of a trace, in order. -/
def echoedBytes : List Event → List Byte
  | [] => []
  | .echo b :: es => b :: echoedBytes es
  | .motor _ _ _ _ :: es => echoedBytes es

end Sys2Proof.Machine
end

