-- ==== Sys2Proof/Certificates/Slice0/Obligations.lean ====
section
/-! DEFINITION. The statements for the provers. A rule that the spec marks as its own decision (D<n>) or inference is
named as such in the docstring; such a statement is derived, never stated. -/

open Sys2Proof
open Sys2Proof.Machine

/-! ## Encoding -/

/-- The request word format of `30_encoding.md` section 3 (the spec's decision D4): decoding the canonical word of a
well-formed operation gives it back, with every operand at every value, also through the table's numbering. -/
def Obligations.DecodeOfEncodeIsIdentity : Prop :=
  ∀ i : Instr, i.WellFormed →
    decodeWord (encode i) = i ∧ decodeTableWord 80 (encode i).toNat = some i

/-- `30_encoding.md` section 3 (decision D4): every one of the 2^74 words decodes to an operation that a word can
present, and encoding that again gives the word with its unused fields zeroed. -/
def Obligations.EncodeOfDecodeIsCanonicalWord : Prop :=
  ∀ w : ReqWord, (decodeWord w).WellFormed ∧
    encode (decodeWord w) = w &&&
      (if w.extractLsb' 72 2 = 0b01#2 then 0x3FF0000000000000000#74
       else if w.extractLsb' 72 2 = 0b10#2 then 0x300FFFFFFFFFFFFFFFF#74
       else 0x3000000000000000000#74)

/-- `30_encoding.md` section 3 (decisions D4, D5): the operation is chosen by `op`, fields an operation does not use are
ignored, and SET_SPEED's operands are the two's complement readings. -/
def Obligations.OnlyUsedRequestFieldsMatter : Prop :=
  ∀ (b : Byte) (l r : Operand),
    decodeRequest { op := 0b00, byte := b, left := l, right := r } = .nop ∧
    decodeRequest { op := 0b01, byte := b, left := l, right := r } = commandInstr b ∧
    decodeRequest { op := 0b10, byte := b, left := l, right := r } = .setSpeed l.toInt r.toInt ∧
    decodeRequest { op := 0b11, byte := b, left := l, right := r } = .init

/-- R62: the decoder's table over the quoted characters. -/
def Obligations.CommandByteDecoderIsTotal : Prop :=
  decodeDirective Config.built (BitVec.ofNat 8 'F'.toNat) = .forward ∧
  decodeDirective Config.built (BitVec.ofNat 8 'B'.toNat) = .backward ∧
  decodeDirective Config.built (BitVec.ofNat 8 'S'.toNat) = .stop ∧
  ∀ x : Byte, x ≠ BitVec.ofNat 8 'F'.toNat → x ≠ BitVec.ofNat 8 'B'.toNat → x ≠ BitVec.ofNat 8 'S'.toNat →
    decodeDirective Config.built x = .unknown x

/-- Words of `95_test_vectors.md` sections 1, 2.3 and 2.4 (INIT and NOP) decode to their operations, as the request word
format of `30_encoding.md` section 3 (decision D4) has them. -/
def Obligations.WrittenOutWordsDecode : Prop :=
  decodeWord 0x0000000000000000000#74 = .nop ∧ decodeWord 0x3000000000000000000#74 = .init ∧
  decodeWord 0x1460000000000000000#74 = .cmdF ∧ decodeWord 0x1420000000000000000#74 = .cmdB ∧
  decodeWord 0x1530000000000000000#74 = .cmdS ∧ decodeWord 0x1510000000000000000#74 = .cmdUnknown 0x51 ∧
  decodeWord 0x20000000014FFFFFFEC#74 = .setSpeed 20 (-20) ∧ decodeWord 0x2AB0000001400000014#74 = .setSpeed 20 20

/-- `30_encoding.md` section 4 (decision D20): the shorthands of the text syntax read as their CMD operation, and FORWARD
is not SET_SPEED 20, 20. -/
def Obligations.TextShorthandsReadAsCommands : Prop :=
  readLine ['F', 'O', 'R', 'W', 'A', 'R', 'D'] = .operation .cmdF ∧
  readLine ['B', 'A', 'C', 'K', 'W', 'A', 'R', 'D'] = .operation .cmdB ∧
  readLine ['S', 'T', 'O', 'P'] = .operation .cmdS ∧
  readLine ['C', 'M', 'D', ' ', '\'', 'F', '\''] = .operation .cmdF ∧
  readLine ['S', 'E', 'T', '_', 'S', 'P', 'E', 'E', 'D', ' ', '2', '0', ',', ' ', '2', '0'] = .operation (.setSpeed 20 20)

/-! ## The mapper -/

/-- R80: the clamp saturates and passes both bounds unchanged. -/
def Obligations.ClampSaturatesAtBothBounds : Prop :=
  ∀ p : Int,
    (p < -100 → clamp p Config.built.pctMin Config.built.pctMax = -100) ∧
    (100 < p → clamp p Config.built.pctMin Config.built.pctMax = 100) ∧
    (-100 ≤ p → p ≤ 100 → clamp p Config.built.pctMin Config.built.pctMax = p)

/-- R83: the duty level is the floor of the exact product over 100, with the corner cases the rule gives. -/
def Obligations.DutyLevelIsFloorOfExactProduct : Prop :=
  (∀ T m : Nat, m ≤ 100 →
    dutyLevel Config.built T m * 100 ≤ T * m ∧ T * m < (dutyLevel Config.built T m + 1) * 100) ∧
  dutyLevel Config.built 6249 0 = 0 ∧ dutyLevel Config.built 6249 1 = 62 ∧ dutyLevel Config.built 6249 20 = 1249 ∧
  dutyLevel Config.built 6249 50 = 3124 ∧ dutyLevel Config.built 6249 99 = 6186 ∧
  dutyLevel Config.built 6249 100 = 6249

/-- R86: the ranges of the mapper's results, and when the duty level is 0 or full. -/
def Obligations.MapperResultsStayInRange : Prop :=
  ∀ (p : Int) (T : Nat),
    let m := mapPercent Config.built p T
    (-100 ≤ m.percent ∧ m.percent ≤ 100) ∧ m.duty ≤ T ∧
    (m.duty = 0 ↔ T * m.percent.natAbs < 100) ∧
    (100 ≤ T → (m.duty = 0 ↔ m.percent = 0)) ∧
    (0 < T → (m.duty = T ↔ m.percent.natAbs = 100))

/-- `00_scope.md` section 4 (R8 is the spec's inference): for EVERY legal configuration the mapper's results stay in
that configuration's range, so the registers hold them exactly: `SPEED` is the operand clamped to that range. -/
def Obligations.EveryLegalConfigurationMapsInRange : Prop :=
  ∀ cfg : Config, cfg.Legal → ∀ (p : Int) (ch : Channel),
    let new := ch.drive (mapPercent cfg p ch.top.toNat)
    new.speed.toInt = clamp p cfg.pctMin cfg.pctMax ∧
    (cfg.pctMin ≤ new.speed.toInt ∧ new.speed.toInt ≤ cfg.pctMax) ∧
    new.duty.toNat ≤ ch.top.toNat ∧
    new.duty.toNat = ch.top.toNat * new.speed.toInt.natAbs / cfg.pctDen ∧
    (new.dir = true ↔ 0 ≤ new.speed.toInt)

/-- `40_duty_mapper.md` section 2, the properties (a) to (e) that the spec derives there (R87). -/
def Obligations.MapperIsSymmetricMonotoneSaturating : Prop :=
  (∀ (p : Int) (T : Nat), (mapPercent Config.built p T).duty = (mapPercent Config.built (-p) T).duty ∧
    (mapPercent Config.built (-p) T).percent = -(mapPercent Config.built p T).percent) ∧
  (∀ (p q : Int) (T : Nat), (mapPercent Config.built p T).percent.natAbs ≤ (mapPercent Config.built q T).percent.natAbs →
    (mapPercent Config.built p T).duty ≤ (mapPercent Config.built q T).duty) ∧
  (∀ (p : Int) (T : Nat), 100 ≤ p → mapPercent Config.built p T = { percent := 100, dir := true, duty := T }) ∧
  (∀ (p : Int) (T : Nat), p ≤ -100 → mapPercent Config.built p T = { percent := -100, dir := false, duty := T }) ∧
  (∀ (p : Int) (T : Nat), mapPercent Config.built (clampedPercent p) T = mapPercent Config.built p T) ∧
  (∀ m n : Nat, m ≤ 100 → n ≤ 100 → dutyLevel Config.built 6249 m = dutyLevel Config.built 6249 n → m = n)

/-- `40_duty_mapper.md` section 1 (R81, decision D22): high exactly when the clamped percent is non-negative, which is
when the raw percent is; so zero is forward. -/
def Obligations.DirectionIsHighExactlyForNonNegative : Prop :=
  ∀ (p : Int) (T : Nat),
    ((mapPercent Config.built p T).dir = true ↔ 0 ≤ (mapPercent Config.built p T).percent) ∧
    ((mapPercent Config.built p T).dir = true ↔ 0 ≤ p)

/-! ## The motor controller -/

/-- R98, R99: SET_SPEED completes for all integers in every initialised state, drives each channel from its own operand,
emits one Motor event with the values written, no echo, and changes nothing else; before INIT it is refused; its word is
`{0b10, 0x00, l, r}`, as in the rule's worked example. -/
def Obligations.SetSpeedClampsAndDrivesBothChannels : Prop :=
  (∀ (l r : Int) (s : State), s.initDone = true →
    ∃ t, exec (.setSpeed l r) s = .next t ∧
      DrivenBy l s.left t.left ∧ DrivenBy r s.right t.right ∧
      t.trace = s.trace ++ [.motor t.left.dir t.right.dir t.left.duty t.right.duty] ∧
      t.echoPending = s.echoPending ∧ t.echoByte = s.echoByte ∧
      (∀ c, KeepsRest (s.ch c) (t.ch c)) ∧ KeepsControl s t) ∧
  (∀ (l r : Int) (s : State), s.initDone = false → exec (.setSpeed l r) s = .refused .beforeInit) ∧
  (∀ l r : Operand, decodeWord (0b10#2 ++ 0x00#8 ++ l ++ r) = .setSpeed l.toInt r.toInt) ∧
  decodeWord 0x20000000014FFFFFFEC#74 = .setSpeed 20 (-20)

/-- R101: the new values of one channel depend on that channel's operand (and its own TOP) only. -/
def Obligations.SetSpeedChannelsAreIndependent : Prop :=
  ∀ (l l' r r' : Int) (s s' t t' : State),
    exec (.setSpeed l r) s = .next t → exec (.setSpeed l' r') s' = .next t' →
    (l = l' → s.left.top = s'.left.top →
      t.left.speed = t'.left.speed ∧ t.left.dir = t'.left.dir ∧ t.left.duty = t'.left.duty) ∧
    (r = r' → s.right.top = s'.right.top →
      t.right.speed = t'.right.speed ∧ t.right.dir = t'.right.dir ∧ t.right.duty = t'.right.duty)

/-- R100: the result depends on the operands and the two TOPs only; a repetition leaves the operation-layer state equal
and emits its own Motor event; clamped operands do the same as the raw ones. -/
def Obligations.SetSpeedIsMemorylessAndIdempotent : Prop :=
  ∀ (l r : Int) (s : State), s.initDone = true →
    exec (.setSpeed (clampedPercent l) (clampedPercent r)) s = exec (.setSpeed l r) s ∧
    (∀ s' t t', s'.left.top = s.left.top → s'.right.top = s.right.top →
      exec (.setSpeed l r) s = .next t → exec (.setSpeed l r) s' = .next t' → t.motorRegs = t'.motorRegs) ∧
    ∃ t u, exec (.setSpeed l r) s = .next t ∧ exec (.setSpeed l r) t = .next u ∧
      u = { t with trace := t.trace ++ [.motor t.left.dir t.right.dir t.left.duty t.right.duty] }

/-- `41_motor_driver.md` section 2 (R96, with the spec's decisions D7, D8, D14, D15, D24): INIT completes in every state
with INIT_DONE = 0, and its result depends on nothing but the echo registers, the trace and the model's own fields. -/
def Obligations.InitConfiguresBothChannels : Prop :=
  ∀ s : State, s.initDone = false →
    exec .init s = .next { s with
      left := { speed := 0, dir := true, duty := 0, top := 6249, div := 1, cnt := 0, act := 0 },
      right := { speed := 0, dir := true, duty := 0, top := 6249, div := 1, cnt := 0, act := 0 },
      dirOe := true, pwmEn := true, initDone := true, trace := s.trace ++ [.motor true true 0 0] }

/-- R24: INIT writes the carrier parameters, nothing writes them again (until a reset), and the two channels agree once
INIT_DONE = 1. -/
def Obligations.CarrierParametersAreFixedAtInit : Prop :=
  (∀ s t : State, exec .init s = .next t → ∀ c, (t.ch c).top = 6249 ∧ (t.ch c).div = 1) ∧
  (∀ s t : State, step s = .next t → s.initDone = true → s.edgeInput.rst = false →
    t.initDone = true ∧ ∀ c, (t.ch c).top = (s.ch c).top ∧ (t.ch c).div = (s.ch c).div) ∧
  (∀ s : State, Inv s → s.initDone = true → s.left.top = s.right.top ∧ s.left.div = s.right.div)

/-- `41_motor_driver.md` section 2 (R97, decision D9): a second INIT has no next state. -/
def Obligations.SecondInitIsRefused : Prop :=
  ∀ s : State, s.initDone = true → exec .init s = .refused .reinit

/-- `60_exceptions.md` section 2 (R102, R123, R157, decision D8): before INIT every CMD and SET_SPEED is refused. -/
def Obligations.MotorOperationsBeforeInitAreRefused : Prop :=
  ∀ s : State, s.initDone = false →
    (∀ b, exec (commandInstr b) s = .refused .beforeInit) ∧ (∀ l r, exec (.setSpeed l r) s = .refused .beforeInit)

/-- `60_exceptions.md` section 2 (R157, decisions D8, D9): on the built machine an operation has a next state exactly when
none of the listed conditions holds, and NOP always has one. -/
def Obligations.OperationsCompleteExactlyWhenNotListed : Prop :=
  ∀ (i : Instr) (s : State),
    ((∃ t, exec i s = .next t) ↔
      i = .nop ∨ (i = .init ∧ s.initDone = false) ∨ (i ≠ .nop ∧ i ≠ .init ∧ s.initDone = true)) ∧
    ((∃ t, exec i s = .next t) ∨ exec i s = .refused .reinit ∨ exec i s = .refused .beforeInit)

/-- R150: no fault; an operation that is meaningful in its state always has a next state. -/
def Obligations.MeaningfulOperationsNeverFault : Prop :=
  (∀ (s : State) (f : Fault), step s ≠ .fault f) ∧
  (∀ (i : Instr) (s : State),
    (i = .nop ∨ (i = .init ∧ s.initDone = false) ∨ (i ≠ .init ∧ s.initDone = true)) → ∃ t, exec i s = .next t)

/-! ## The command front end -/

/-- R113: `'F'` drives both channels at 20 and echoes 0x46, Motor before Echo. -/
def Obligations.ForwardCommandDrivesBothForward : Prop :=
  (∀ s : State, s.initDone = true →
    ∃ t, exec .cmdF s = .next t ∧ (∀ c, (t.ch c).speed.toInt = 20 ∧ (t.ch c).dir = true ∧
        (t.ch c).duty.toNat = (s.ch c).top.toNat * 20 / 100) ∧
      ((∀ c, (s.ch c).top = 6249) → ∀ c, (t.ch c).duty = 1249) ∧
      t.echoPending = true ∧ t.echoByte = 0x46 ∧
      t.takeEcho.trace = s.trace ++ [.motor true true t.left.duty t.right.duty, .echo 0x46]) ∧
  decodeWord 0x1460000000000000000#74 = .cmdF

/-- R114: `'B'` drives both channels at -20 and echoes 0x42. -/
def Obligations.BackwardCommandDrivesBothBackward : Prop :=
  (∀ s : State, s.initDone = true →
    ∃ t, exec .cmdB s = .next t ∧ (∀ c, (t.ch c).speed.toInt = -20 ∧ (t.ch c).dir = false ∧
        (t.ch c).duty.toNat = (s.ch c).top.toNat * 20 / 100) ∧
      ((∀ c, (s.ch c).top = 6249) → ∀ c, (t.ch c).duty = 1249) ∧
      t.echoPending = true ∧ t.echoByte = 0x42 ∧
      t.takeEcho.trace = s.trace ++ [.motor false false t.left.duty t.right.duty, .echo 0x42]) ∧
  decodeWord 0x1420000000000000000#74 = .cmdB

/-- R115: `'S'` leaves speed 0, duty 0 and both direction pins high, whatever they were, and echoes 0x53. -/
def Obligations.StopCommandSelectsForwardPolarity : Prop :=
  (∀ s : State, s.initDone = true →
    ∃ t, exec .cmdS s = .next t ∧ (∀ c, (t.ch c).speed.toInt = 0 ∧ (t.ch c).dir = true ∧ (t.ch c).duty = 0) ∧
      t.dirOe = s.dirOe ∧ t.pwmEn = s.pwmEn ∧ t.echoPending = true ∧ t.echoByte = 0x53 ∧
      t.takeEcho.trace = s.trace ++ [.motor true true 0 0, .echo 0x53]) ∧
  decodeWord 0x1530000000000000000#74 = .cmdS

/-- R116: any other byte changes nothing but the echo registers, and is echoed. -/
def Obligations.UnknownByteOnlyEchoes : Prop :=
  (∀ (b : Byte) (s : State), b ≠ 0x46 → b ≠ 0x42 → b ≠ 0x53 → s.initDone = true →
    ∃ t, exec (.cmdUnknown b) s = .next t ∧ t = { s with echoByte := b, echoPending := true } ∧
      t.takeEcho.trace = s.trace ++ [.echo b]) ∧
  decodeWord 0x1510000000000000000#74 = .cmdUnknown 0x51

/-- R111, R112: `CMD b` decodes, performs the table's SET_SPEED or nothing, then hands `b` to the echo; before INIT it is
refused; its word is `{0b01, b, 0, 0}`. -/
def Obligations.CommandDispatchesThenEchoes : Prop :=
  (∀ (b : Byte) (s : State), s.initDone = true →
    ∃ t, exec (commandInstr b) s = .next t ∧
      (decodeDirective Config.built b = .forward →
        ∃ u, exec (.setSpeed 20 20) s = .next u ∧ t = { u with echoByte := b, echoPending := true }) ∧
      (decodeDirective Config.built b = .backward →
        ∃ u, exec (.setSpeed (-20) (-20)) s = .next u ∧ t = { u with echoByte := b, echoPending := true }) ∧
      (decodeDirective Config.built b = .stop →
        ∃ u, exec (.setSpeed 0 0) s = .next u ∧ t = { u with echoByte := b, echoPending := true }) ∧
      (∀ x, decodeDirective Config.built b = .unknown x → t = { s with echoByte := b, echoPending := true }) ∧
      t.takeEcho.trace = t.trace ++ [.echo b]) ∧
  (∀ (b : Byte) (s : State), s.initDone = false → exec (commandInstr b) s = .refused .beforeInit) ∧
  (∀ b : Byte, decodeWord (0b01#2 ++ b ++ 0x00000000#32 ++ 0x00000000#32) = commandInstr b)

/-- `42_command_loop.md` section 5 (R122, the spec's inference): after a CMD the motor registers are as before or one of
three fixed settings. -/
def Obligations.CommandLeavesOneOfFourSettings : Prop :=
  ∀ (b : Byte) (s t : State), exec (commandInstr b) s = .next t →
    t.motorRegs = s.motorRegs ∨
    (∀ c, DrivenBy 20 (s.ch c) (t.ch c)) ∨ (∀ c, DrivenBy (-20) (s.ch c) (t.ch c)) ∨ (∀ c, DrivenBy 0 (s.ch c) (t.ch c))

/-- R121: the same byte twice leaves the same state but for the trace, which gains its own events each time. -/
def Obligations.RepeatedCommandLeavesTheSameState : Prop :=
  ∀ (b : Byte) (s : State), s.initDone = true →
    ∃ t u, exec (commandInstr b) s = .next t ∧ exec (commandInstr b) t.takeEcho = .next u ∧
      { u with trace := t.trace } = t ∧
      u.takeEcho.trace = t.takeEcho.trace ++ t.takeEcho.trace.drop s.trace.length

/-- `42_command_loop.md` section 3 (R117, decision D28): NOP completes in every state and is the identity. -/
def Obligations.NopIsTheIdentity : Prop :=
  ∀ s : State, exec .nop s = .next s

/-- `42_command_loop.md` sections 3 and 5 (R117, R120, decision D28): any number of NOPs may stand between operations
without changing any result, refusals included. -/
def Obligations.NopsBetweenOperationsChangeNothing : Prop :=
  ∀ (ops : List Instr) (s : State), s.echoPending = false →
    runOps (ops.filter (fun i => decide (i ≠ .nop))) s = runOps ops s

/-- `42_command_loop.md` section 5 (R119, R122; decision D8 for INIT first): the canonical loop, from any state before
INIT with no echo pending, is never refused, echoes exactly the received bytes in order, never lets the channels differ,
and never exceeds 20 percent. It is a claim about `runOps`, where the host takes each echo before the next operation: that
is log entry 11 (DEDUCED), and it stands for the premise that decision D12 asks of every claim of progress. -/
def Obligations.CanonicalLoopEchoesEveryByteInOrder : Prop :=
  ∀ (polls : List (Option Byte)) (s : State), s.initDone = false → s.echoPending = false →
    ∃ t, runOps (canonicalProgram polls) s = .next t ∧
      echoedBytes t.trace = echoedBytes s.trace ++ polls.reduceOption ∧
      t.left = t.right ∧ t.left.speed.toInt.natAbs ≤ 20 ∧ t.echoPending = false

/-! ## Frames and ownership -/

/-- What the operations leave unchanged: INIT all but the channels, the three enables and the trace; SET_SPEED all but
`SPEED`, `DIR`, `DUTY` and the trace; CMD F, B and S these and the echo registers; CMD_UNKNOWN all but the echo
registers. (`41_motor_driver.md` sections 2 and 3, `42_command_loop.md` sections 2 to 4.) -/
def Obligations.OperationsLeaveTheRestUnchanged : Prop :=
  (∀ s t : State, exec .init s = .next t →
    t.echoPending = s.echoPending ∧ t.echoByte = s.echoByte ∧ t.host = s.host ∧ t.held = s.held ∧ t.resets = s.resets) ∧
  (∀ (l r : Int) (s t : State), exec (.setSpeed l r) s = .next t →
    (∀ c, KeepsRest (s.ch c) (t.ch c)) ∧ KeepsControl s t ∧ t.echoPending = s.echoPending ∧ t.echoByte = s.echoByte) ∧
  (∀ (i : Instr) (s t : State), (i = .cmdF ∨ i = .cmdB ∨ i = .cmdS) → exec i s = .next t →
    (∀ c, KeepsRest (s.ch c) (t.ch c)) ∧ KeepsControl s t) ∧
  (∀ (b : Byte) (s t : State), (Instr.cmdUnknown b).WellFormed → exec (.cmdUnknown b) s = .next t →
    t.left = s.left ∧ t.right = s.right ∧ KeepsControl s t ∧ t.trace = s.trace)

/-- `41_motor_driver.md` section 1 (R95), between resets: an edge changes a motor register only by accepting INIT,
SET_SPEED or a recognised command byte, and TOP or DIV only by accepting INIT. -/
def Obligations.OnlyMotorOperationsWriteMotorRegisters : Prop :=
  ∀ s t : State, step s = .next t → s.edgeInput.rst = false →
    (t.motorRegs ≠ s.motorRegs →
      ∃ r, s.accepted s.edgeInput = some r ∧
        (decodeRequest r = .init ∨ (∃ a b, decodeRequest r = .setSpeed a b) ∨ decodeRequest r = .cmdF ∨
          decodeRequest r = .cmdB ∨ decodeRequest r = .cmdS)) ∧
    (((∃ c, (t.ch c).top ≠ (s.ch c).top) ∨ (∃ c, (t.ch c).div ≠ (s.ch c).div)) →
      ∃ r, s.accepted s.edgeInput = some r ∧ decodeRequest r = .init)

/-- R36: for as long as no operation arrives and no reset, `SPEED`, `DIR` and `DUTY` hold, and of the other elements only
`CNT`, `ACT` and `ECHO_PENDING` change. -/
def Obligations.MotorStatePersistsBetweenOperations : Prop :=
  ∀ (k : Nat) (s : State), s.held = none → (∀ e ∈ s.host.take k, e.rst = false ∧ e.req = none) →
    ∃ t, Host.Core.run Sys2Proof.core k s = .next t ∧ t.motorRegs = s.motorRegs ∧
      (∀ c, (t.ch c).top = (s.ch c).top ∧ (t.ch c).div = (s.ch c).div) ∧
      t.initDone = s.initDone ∧ t.dirOe = s.dirOe ∧ t.pwmEn = s.pwmEn ∧ t.echoByte = s.echoByte

/-- `43_pwm_generator.md` section 4 (R142, decision D2): no operation reads `CNT`, `ACT`, a pin or the host's fields: on
two states that agree at the operation layer it has the same outcome, agreeing at the operation layer. -/
def Obligations.OperationsDoNotReadTheSignalLayer : Prop :=
  ∀ (i : Instr) (s t : State), OpAgree s t → SameOutcome OpAgree (exec i s) (exec i t)

/-- `10_state.md` section 2 (R21, decision D6): the retained `SPEED` values are never read. Two states equal in everything
but `SPEED` drive the same pins and stay so for ever: every operation, every later operation and every edge is refused
alike or leads to states equal in everything but `SPEED`. -/
def Obligations.StoredSpeedInfluencesNothing : Prop :=
  ∀ s t : State, EqualButSpeed s t →
    (∀ c, s.dirPin c = t.dirPin c ∧ s.pwmPin c = t.pwmPin c) ∧
    (∀ i, SameOutcome EqualButSpeed (exec i s) (exec i t)) ∧
    (∀ ops, SameOutcome EqualButSpeed (runOps ops s) (runOps ops t)) ∧
    (∀ k, SameOutcome EqualButSpeed (Host.Core.run Sys2Proof.core k s) (Host.Core.run Sys2Proof.core k t))

/-! ## Reset and the invariant -/

/-- `70_reset_and_hazards.md` section 1 (decision D10): what the spec gives for the state after reset, and no event yet. The
other elements' values (log entry 1) are the model's choice and are not stated. -/
def Obligations.ResetStateHasSpecifiedValues : Prop :=
  State.reset.initDone = false ∧ State.reset.dirOe = false ∧ State.reset.pwmEn = false ∧
  State.reset.echoPending = false ∧ (∀ c, (State.reset.ch c).cnt = 0) ∧ State.reset.trace = []

/-- `70_reset_and_hazards.md` section 1 (R170, R171, decisions D3, D10, D26): a reset edge has a next state whatever is
presented, clears the six elements, drops a pending echo without an event and accepts nothing. (That the trace is kept
is log entry 6.) -/
def Obligations.ResetEdgeOverridesEverything : Prop :=
  ∀ s : State, s.edgeInput.rst = true →
    ∃ t, step s = .next t ∧ t.initDone = false ∧ t.dirOe = false ∧ t.pwmEn = false ∧ t.echoPending = false ∧
      (∀ c, (t.ch c).cnt = 0) ∧ t.trace = s.trace ∧ t.host = s.host.tail ∧
      t.dirPin .L = none ∧ t.dirPin .R = none ∧ t.pwmPin .L = none ∧ t.pwmPin .R = none ∧ t.status = none

/-- The invariant (`10_state.md` section 3 with R26, R37, R139) holds right after reset. -/
def Obligations.InvariantHoldsAfterReset : Prop :=
  Inv State.reset

/-- Every step from every state that meets the invariant keeps it: R29's bounds, duty formula, polarity and carrier
parameters, the ranges of `CNT` and `ACT`, the channels' phase (decision D15), and `DIR_OE = PWM_EN = INIT_DONE`
(decision D24). -/
def Obligations.EveryStepKeepsTheInvariant : Prop :=
  ∀ s t : State, Inv s → step s = .next t → Inv t

/-- `10_state.md` section 5 (R37, decision D10): the elements that reset leaves unspecified reach no output and no later
specified element: two states that differ only in them show the same outputs and step alike. -/
def Obligations.UnspecifiedResetValuesReachNoOutput : Prop :=
  ∀ s t : State, Inv s → SpecifiedAgree s t →
    s.outputs = t.outputs ∧ SameOutcome SpecifiedAgree (step s) (step t)

/-! ## The step and the ports -/

/-- `20_memory.md` section 2 (R42, decision D4; R153, decision D26; log entry 7): an edge with `rst = 0` and no echo pending at
which a request is presented (the one that waits, if one does) is the decoded operation after the counters' tick. -/
def Obligations.AcceptingEdgeRunsDecodedOperation : Prop :=
  ∀ (s : State) (r : Request) (ready : Bool) (rest : List EdgeInput),
    s.host = { rst := false, req := some r, echoReady := ready } :: rest →
    s.echoPending = false → (s.held = none ∨ s.held = some r) →
    step s = exec (decodeRequest r) { s with host := rest, held := none }.tick

/-- The same for the word that `withFetchWord` presents: the step runs the operation the word decodes to (log entry 4). -/
def Obligations.FetchedWordRunsAtNextStep : Prop :=
  ∀ (s : State) (w : ReqWord),
    step (s.withFetchWord 80 w.toNat) = exec (decodeWord w) { s with held := none, echoPending := false }.tick

/-- `20_memory.md` section 2 (R43, decision D12): a taken echo emits its event and frees the port; an untaken one stays. -/
def Obligations.EchoIsTransferredWhenReady : Prop :=
  ∀ (s : State) (ready : Bool) (rest : List EdgeInput), s.echoPending = true → s.held = none →
    s.host = { rst := false, req := none, echoReady := ready } :: rest →
    ∃ t, step s = .next t ∧ t.echoPending = !ready ∧ t.echoByte = s.echoByte ∧ t.motorRegs = s.motorRegs ∧
      t.trace = (if ready then s.trace ++ [.echo s.echoByte] else s.trace) ∧ t.reqReady false = ready

/-- `20_memory.md` section 2 (R43, R45, decisions D12, D18): the status outputs are copies of the six registers they are
named after, valid exactly while `INIT_DONE = 1`, and the echo port shows `ECHO_BYTE` exactly while `ECHO_PENDING = 1`. -/
def Obligations.StatusAndEchoPortsShowTheRegisters : Prop :=
  ∀ s : State,
    (s.initDone = true → ∃ st, s.status = some st ∧
      st.speedL = s.left.speed ∧ st.speedR = s.right.speed ∧ st.dutyL = s.left.duty ∧ st.dutyR = s.right.duty ∧
      st.dirL = s.left.dir ∧ st.dirR = s.right.dir) ∧
    (s.initDone = false → s.status = none) ∧
    (s.echoPending = true → s.echoPort = some s.echoByte) ∧
    (s.echoPending = false → s.echoPort = none)

/-- `70_reset_and_hazards.md` section 3 (R180, R192, decisions D12, D21): while the host leaves an echo untaken a held request
waits, the motor registers staying as they are; once it is taken, the request is accepted at the next edge. -/
def Obligations.UntakenEchoStallsThenRequestIsAccepted : Prop :=
  ∀ (n : Nat) (s : State) (r : Request) (ready : Bool) (rest : List EdgeInput),
    s.echoPending = true → (s.held = none ∨ s.held = some r) →
    s.host = List.replicate n { rst := false, req := some r, echoReady := false } ++
      { rst := false, req := some r, echoReady := true } :: { rst := false, req := some r, echoReady := ready } :: rest →
    (∀ k ≤ n, ∃ t, Host.Core.run Sys2Proof.core k s = .next t ∧ t.echoPending = true ∧ t.trace = s.trace ∧
      t.motorRegs = s.motorRegs) ∧
    ∃ u, Host.Core.run Sys2Proof.core (n + 1) s = .next u ∧ u.motorRegs = s.motorRegs ∧
      u.trace = s.trace ++ [.echo s.echoByte] ∧
      step u = exec (decodeRequest r) { u with host := rest, held := none }.tick

/-- `20_memory.md` section 5 (R58, "assumed never (which a model gives no move)"; decision D4; log entry 5): changing or
withdrawing a request that waits has no next state. That a change in fields the
waiting operation does not use counts as well is the model's choice (log entry 5). -/
def Obligations.ChangedWaitingRequestIsRefused : Prop :=
  ∀ (s : State) (r : Request), s.held = some r → s.edgeInput.rst = false → s.edgeInput.req ≠ some r →
    step s = .refused .requestChanged

/-- The two layers agree (`00_scope.md` section 3, decision D2; `20_memory.md` section 4, decision D25): any number of edges without a
reset that has a next state is, at the operation layer and with the echo taken, the run of exactly the operations accepted at
those edges, in order. -/
def Obligations.ClockedRunIsRunOfAcceptedOperations : Prop :=
  ∀ (k : Nat) (s t : State), NoReset k s → Host.Core.run Sys2Proof.core k s = .next t →
    ∃ u, runOps (acceptedOps k s) s.takeEcho = .next u ∧ OpAgree u t.takeEcho

/-- `70_reset_and_hazards.md` section 2 (R174, decision D29): a run is over exactly when no operation is left to present, none
waits for acceptance and no echo is pending; then it has a final state, the registers and the trace, no later edge
accepts an operation, and without a reset every later state is over too and agrees with it at the operation layer. A
run that has taken an edge beyond the host's last one with no echo pending is over (log entries 3 and 5: the host is idle
there, and withdrawing a request that waits is refused). -/
def Obligations.RunIsOverWhenAllIsAcceptedAndEchoed : Prop :=
  (∀ s : State, s.runOver = true ↔ (∀ e ∈ s.host, e.req = none) ∧ s.held = none ∧ s.echoPending = false) ∧
  (∀ s : State, s.runOver = false → s.finalState = none) ∧
  (∀ s : State, s.runOver = true →
    s.finalState = some { left := s.left, right := s.right, initDone := s.initDone, dirOe := s.dirOe, pwmEn := s.pwmEn,
                          echoPending := false, echoByte := s.echoByte, trace := s.trace } ∧
    ∀ k, acceptedOps k s = [] ∧
      (NoReset k s → ∃ t, Host.Core.run Sys2Proof.core k s = .next t ∧ t.runOver = true ∧ OpAgree s t)) ∧
  (∀ s t : State, Host.Core.run Sys2Proof.core (s.host.length + 1) s = .next t → t.echoPending = false → t.runOver = true)

/-! ## The waveform -/

/-- `43_pwm_generator.md` section 2 (R132, R134, decisions D13, D14, D26): at every edge after INIT, whatever operation it
accepts, each counter counts 0 to TOP and the compare value takes the duty level from before the edge at a wrap only. -/
def Obligations.CountersTickAtEveryEdge : Prop :=
  ∀ (s t : State) (c : ChannelId), s.initDone = true → s.pwmEn = true → s.edgeInput.rst = false → step s = .next t →
    ((s.ch c).cnt = (s.ch c).top → (t.ch c).cnt = 0 ∧ (t.ch c).act = (s.ch c).duty) ∧
    ((s.ch c).cnt ≠ (s.ch c).top → (t.ch c).cnt = (s.ch c).cnt + 1 ∧ (t.ch c).act = (s.ch c).act)

/-- `43_pwm_generator.md` sections 2 and 4 (R133, R134, R138, decisions D13, D14): from the start of a carrier period, through
all its edges and whatever operations they accept, the pin is high exactly for the first `ACT` counts, with the level
the period began with; so no pulse is cut or stretched. -/
def Obligations.CarrierPeriodKeepsItsLevel : Prop :=
  ∀ (s t : State) (c : ChannelId) (k : Nat), Inv s → s.initDone = true → (s.ch c).cnt = 0 →
    k ≤ (s.ch c).top.toNat → NoReset k s → Host.Core.run Sys2Proof.core k s = .next t →
    (t.ch c).cnt.toNat = k ∧ (t.ch c).act = (s.ch c).act ∧
    t.pwmPin c = some (decide (k < (s.ch c).act.toNat))

/-- `43_pwm_generator.md` sections 2 and 3 (R44, R133, R135, R136, R138, decisions D13, D14, D24): no pin is driven before
INIT; after it all four are, the direction pins with the stored speed's sign, the PWM pins high while `CNT < ACT`, and
low at the last count of every period, also at full speed. -/
def Obligations.PinsAreDrivenExactlyAfterInit : Prop :=
  ∀ (s : State) (c : ChannelId), Inv s →
    (s.initDone = false → s.dirPin c = none ∧ s.pwmPin c = none) ∧
    (s.initDone = true → s.dirPin c = some (decide (0 ≤ (s.ch c).speed.toInt)) ∧
      s.pwmPin c = some (decide ((s.ch c).cnt.toNat < (s.ch c).act.toNat)) ∧
      ((s.ch c).cnt = (s.ch c).top → s.pwmPin c = some false))

/-- `43_pwm_generator.md` section 3 (R137, decision D17): 20 kHz exactly when `F_CLK` is 125 MHz. -/
def Obligations.CarrierIsNominalExactlyAt125MHz : Prop :=
  ∀ fClk : Rat, carrierFrequency Config.built fClk = fClk / 6250 ∧
    (carrierFrequency Config.built fClk = (Config.built.pwmNominal : Nat) ↔ fClk = 125000000)

/-- `43_pwm_generator.md` section 3 (R138, decision D13): the ratio is the compare value over `TOP + 1`, with the rule's
values at the default `TOP`, so the pin is never high for a whole period. -/
def Obligations.DutyRatioStaysBelowOne : Prop :=
  (∀ a T : Nat, a ≤ T → dutyRatio a T * (T + 1) = a ∧ 0 ≤ dutyRatio a T ∧ dutyRatio a T < 1 ∧
    (dutyRatio a T = 0 ↔ a = 0)) ∧
  dutyRatio 0 6249 = 0 ∧ dutyRatio 1249 6249 = 1249 / 6250 ∧ dutyRatio 6249 6249 = 6249 / 6250
end

