-- ==== Sys2Proof/Laws/Decode.lean ====
section
/-! SUPPORT. The packed request word and its fields; the command bytes. -/

namespace Sys2Proof

/-- The fields of a packed request are the request's. -/
theorem unpackRequest_packRequest (r : Request) : unpackRequest (packRequest r) = r := by
  obtain ⟨op, b, l, rr⟩ := r
  simp only [unpackRequest, packRequest, Request.mk.injEq]
  refine ⟨?_, ?_, ?_, ?_⟩ <;>
    (apply BitVec.eq_of_getLsbD_eq; intro i hi
     simp only [operandWidth, BitVec.getLsbD_extractLsb', BitVec.getLsbD_append, hi, decide_true, Bool.true_and])
  · simp [show ¬ 72 + i < 32 by omega, show ¬ 72 + i - 32 < 32 by omega, show ¬ 72 + i - 32 - 32 < 8 by omega,
      show 72 + i - 32 - 32 - 8 = i by omega]
  · simp [show ¬ 64 + i < 32 by omega, show ¬ 64 + i - 32 < 32 by omega, show 64 + i - 32 - 32 = i by omega]
    omega
  · simp [show ¬ 32 + i < 32 by omega]
    omega
  · simp
    omega

/-- The three command bytes, and every other byte, through the decoder (R110). -/
theorem decodeDirective_built (b : Byte) :
    decodeDirective Config.built b =
      if b = 0x46 then .forward else if b = 0x42 then .backward else if b = 0x53 then .stop else .unknown b := rfl

/-- CMD's four cases over the byte (R71). -/
theorem commandInstr_eq (b : Byte) :
    commandInstr b =
      if b = 0x46 then .cmdF else if b = 0x42 then .cmdB else if b = 0x53 then .cmdS else .cmdUnknown b := by
  unfold commandInstr
  rw [decodeDirective_built]
  by_cases h1 : b = 0x46
  · simp [h1]
  · by_cases h2 : b = 0x42
    · simp [h2]
    · by_cases h3 : b = 0x53
      · simp [h3]
      · simp only [h1, h2, h3, if_false]

/-- An operand that fits the port is the two's complement reading of its field (R69). -/
theorem operand_toInt_ofInt (v : Int) (h : FitsOperand v) : (BitVec.ofInt operandWidth v).toInt = v := by
  obtain ⟨h1, h2⟩ := h
  simp only [operandWidth] at *
  rw [BitVec.toInt_ofInt, Int.bmod_def]
  omega

end Sys2Proof
end

