-- ==== Sys2Proof/Laws/State.lean ====
section
/-! SUPPORT. One lemma per field per update of the state and of a channel, so that no later proof unfolds a record
update. -/

namespace Sys2Proof.Machine

/-! ## `emit` and `emitMotor` -/

@[simp] theorem State.emit_left (s : State) (e : Event) : (s.emit e).left = s.left := rfl
@[simp] theorem State.emit_right (s : State) (e : Event) : (s.emit e).right = s.right := rfl
@[simp] theorem State.emit_initDone (s : State) (e : Event) : (s.emit e).initDone = s.initDone := rfl
@[simp] theorem State.emit_dirOe (s : State) (e : Event) : (s.emit e).dirOe = s.dirOe := rfl
@[simp] theorem State.emit_pwmEn (s : State) (e : Event) : (s.emit e).pwmEn = s.pwmEn := rfl
@[simp] theorem State.emit_echoPending (s : State) (e : Event) : (s.emit e).echoPending = s.echoPending := rfl
@[simp] theorem State.emit_echoByte (s : State) (e : Event) : (s.emit e).echoByte = s.echoByte := rfl
@[simp] theorem State.emit_host (s : State) (e : Event) : (s.emit e).host = s.host := rfl
@[simp] theorem State.emit_held (s : State) (e : Event) : (s.emit e).held = s.held := rfl
@[simp] theorem State.emit_resets (s : State) (e : Event) : (s.emit e).resets = s.resets := rfl
@[simp] theorem State.emit_trace (s : State) (e : Event) : (s.emit e).trace = s.trace ++ [e] := rfl
@[simp] theorem State.emitMotor_left (s : State) : (s.emitMotor).left = s.left := rfl
@[simp] theorem State.emitMotor_right (s : State) : (s.emitMotor).right = s.right := rfl
@[simp] theorem State.emitMotor_initDone (s : State) : (s.emitMotor).initDone = s.initDone := rfl
@[simp] theorem State.emitMotor_dirOe (s : State) : (s.emitMotor).dirOe = s.dirOe := rfl
@[simp] theorem State.emitMotor_pwmEn (s : State) : (s.emitMotor).pwmEn = s.pwmEn := rfl
@[simp] theorem State.emitMotor_echoPending (s : State) : (s.emitMotor).echoPending = s.echoPending := rfl
@[simp] theorem State.emitMotor_echoByte (s : State) : (s.emitMotor).echoByte = s.echoByte := rfl
@[simp] theorem State.emitMotor_host (s : State) : (s.emitMotor).host = s.host := rfl
@[simp] theorem State.emitMotor_held (s : State) : (s.emitMotor).held = s.held := rfl
@[simp] theorem State.emitMotor_resets (s : State) : (s.emitMotor).resets = s.resets := rfl
@[simp] theorem State.emitMotor_trace (s : State) :
    s.emitMotor.trace = s.trace ++ [.motor s.left.dir s.right.dir s.left.duty s.right.duty] := rfl

/-! ## `sendEcho` and `takeEcho` -/

@[simp] theorem State.sendEcho_left (s : State) (b : Byte) : (s.sendEcho b).left = s.left := rfl
@[simp] theorem State.sendEcho_right (s : State) (b : Byte) : (s.sendEcho b).right = s.right := rfl
@[simp] theorem State.sendEcho_initDone (s : State) (b : Byte) : (s.sendEcho b).initDone = s.initDone := rfl
@[simp] theorem State.sendEcho_dirOe (s : State) (b : Byte) : (s.sendEcho b).dirOe = s.dirOe := rfl
@[simp] theorem State.sendEcho_pwmEn (s : State) (b : Byte) : (s.sendEcho b).pwmEn = s.pwmEn := rfl
@[simp] theorem State.sendEcho_trace (s : State) (b : Byte) : (s.sendEcho b).trace = s.trace := rfl
@[simp] theorem State.sendEcho_host (s : State) (b : Byte) : (s.sendEcho b).host = s.host := rfl
@[simp] theorem State.sendEcho_held (s : State) (b : Byte) : (s.sendEcho b).held = s.held := rfl
@[simp] theorem State.sendEcho_resets (s : State) (b : Byte) : (s.sendEcho b).resets = s.resets := rfl
@[simp] theorem State.sendEcho_echoPending (s : State) (b : Byte) : (s.sendEcho b).echoPending = true := rfl
@[simp] theorem State.sendEcho_echoByte (s : State) (b : Byte) : (s.sendEcho b).echoByte = b := rfl
@[simp] theorem State.takeEcho_left (s : State) : (s.takeEcho).left = s.left := by
  unfold State.takeEcho; split <;> rfl
@[simp] theorem State.takeEcho_right (s : State) : (s.takeEcho).right = s.right := by
  unfold State.takeEcho; split <;> rfl
@[simp] theorem State.takeEcho_initDone (s : State) : (s.takeEcho).initDone = s.initDone := by
  unfold State.takeEcho; split <;> rfl
@[simp] theorem State.takeEcho_dirOe (s : State) : (s.takeEcho).dirOe = s.dirOe := by
  unfold State.takeEcho; split <;> rfl
@[simp] theorem State.takeEcho_pwmEn (s : State) : (s.takeEcho).pwmEn = s.pwmEn := by
  unfold State.takeEcho; split <;> rfl
@[simp] theorem State.takeEcho_echoByte (s : State) : (s.takeEcho).echoByte = s.echoByte := by
  unfold State.takeEcho; split <;> rfl
@[simp] theorem State.takeEcho_host (s : State) : (s.takeEcho).host = s.host := by
  unfold State.takeEcho; split <;> rfl
@[simp] theorem State.takeEcho_held (s : State) : (s.takeEcho).held = s.held := by
  unfold State.takeEcho; split <;> rfl
@[simp] theorem State.takeEcho_resets (s : State) : (s.takeEcho).resets = s.resets := by
  unfold State.takeEcho; split <;> rfl
@[simp] theorem State.takeEcho_echoPending (s : State) : s.takeEcho.echoPending = false := by
  unfold State.takeEcho; split <;> simp_all
@[simp] theorem State.takeEcho_trace (s : State) :
    s.takeEcho.trace = if s.echoPending then s.trace ++ [.echo s.echoByte] else s.trace := by
  unfold State.takeEcho; split <;> simp_all
theorem State.takeEcho_of_not_pending (s : State) (h : s.echoPending = false) : s.takeEcho = s := by
  simp [State.takeEcho, h]

/-! ## `advance`, `tick` and `resetEdge` -/

@[simp] theorem State.advance_left (s : State) (w : Option Request) : (s.advance w).left = s.left := rfl
@[simp] theorem State.advance_right (s : State) (w : Option Request) : (s.advance w).right = s.right := rfl
@[simp] theorem State.advance_initDone (s : State) (w : Option Request) : (s.advance w).initDone = s.initDone := rfl
@[simp] theorem State.advance_dirOe (s : State) (w : Option Request) : (s.advance w).dirOe = s.dirOe := rfl
@[simp] theorem State.advance_pwmEn (s : State) (w : Option Request) : (s.advance w).pwmEn = s.pwmEn := rfl
@[simp] theorem State.advance_echoPending (s : State) (w : Option Request) : (s.advance w).echoPending = s.echoPending := rfl
@[simp] theorem State.advance_echoByte (s : State) (w : Option Request) : (s.advance w).echoByte = s.echoByte := rfl
@[simp] theorem State.advance_trace (s : State) (w : Option Request) : (s.advance w).trace = s.trace := rfl
@[simp] theorem State.advance_resets (s : State) (w : Option Request) : (s.advance w).resets = s.resets := rfl
@[simp] theorem State.advance_host (s : State) (w : Option Request) : (s.advance w).host = s.host.tail := rfl
@[simp] theorem State.advance_held (s : State) (w : Option Request) : (s.advance w).held = w := rfl
@[simp] theorem State.tick_initDone (s : State) : (s.tick).initDone = s.initDone := by
  unfold State.tick; split <;> rfl
@[simp] theorem State.tick_dirOe (s : State) : (s.tick).dirOe = s.dirOe := by
  unfold State.tick; split <;> rfl
@[simp] theorem State.tick_pwmEn (s : State) : (s.tick).pwmEn = s.pwmEn := by
  unfold State.tick; split <;> rfl
@[simp] theorem State.tick_echoPending (s : State) : (s.tick).echoPending = s.echoPending := by
  unfold State.tick; split <;> rfl
@[simp] theorem State.tick_echoByte (s : State) : (s.tick).echoByte = s.echoByte := by
  unfold State.tick; split <;> rfl
@[simp] theorem State.tick_trace (s : State) : (s.tick).trace = s.trace := by
  unfold State.tick; split <;> rfl
@[simp] theorem State.tick_host (s : State) : (s.tick).host = s.host := by
  unfold State.tick; split <;> rfl
@[simp] theorem State.tick_held (s : State) : (s.tick).held = s.held := by
  unfold State.tick; split <;> rfl
@[simp] theorem State.tick_resets (s : State) : (s.tick).resets = s.resets := by
  unfold State.tick; split <;> rfl
theorem State.tick_left (s : State) : s.tick.left = if s.pwmEn then s.left.tick else s.left := by
  unfold State.tick; split <;> rfl
theorem State.tick_right (s : State) : s.tick.right = if s.pwmEn then s.right.tick else s.right := by
  unfold State.tick; split <;> rfl
@[simp] theorem State.resetEdge_initDone (s : State) : s.resetEdge.initDone = false := rfl
@[simp] theorem State.resetEdge_dirOe (s : State) : s.resetEdge.dirOe = false := rfl
@[simp] theorem State.resetEdge_pwmEn (s : State) : s.resetEdge.pwmEn = false := rfl
@[simp] theorem State.resetEdge_echoPending (s : State) : s.resetEdge.echoPending = false := rfl
@[simp] theorem State.resetEdge_trace (s : State) : s.resetEdge.trace = s.trace := rfl
@[simp] theorem State.resetEdge_host (s : State) : s.resetEdge.host = s.host := rfl
@[simp] theorem State.resetEdge_held (s : State) : s.resetEdge.held = s.held := rfl
@[simp] theorem State.resetEdge_resets (s : State) : s.resetEdge.resets = s.resets + 1 := rfl
@[simp] theorem State.resetEdge_left (s : State) : s.resetEdge.left = Channel.unspecified s.resets .L := rfl
@[simp] theorem State.resetEdge_right (s : State) : s.resetEdge.right = Channel.unspecified s.resets .R := rfl
@[simp] theorem State.resetEdge_echoByte (s : State) : s.resetEdge.echoByte = Config.freeEchoByte s.resets := rfl

/-! ## The motor writes -/

@[simp] theorem setSpeeds_initDone (cfg : Config) (l r : Int) (s : State) : (setSpeeds cfg l r s).initDone = s.initDone := rfl
@[simp] theorem setSpeeds_dirOe (cfg : Config) (l r : Int) (s : State) : (setSpeeds cfg l r s).dirOe = s.dirOe := rfl
@[simp] theorem setSpeeds_pwmEn (cfg : Config) (l r : Int) (s : State) : (setSpeeds cfg l r s).pwmEn = s.pwmEn := rfl
@[simp] theorem setSpeeds_echoPending (cfg : Config) (l r : Int) (s : State) : (setSpeeds cfg l r s).echoPending = s.echoPending := rfl
@[simp] theorem setSpeeds_echoByte (cfg : Config) (l r : Int) (s : State) : (setSpeeds cfg l r s).echoByte = s.echoByte := rfl
@[simp] theorem setSpeeds_host (cfg : Config) (l r : Int) (s : State) : (setSpeeds cfg l r s).host = s.host := rfl
@[simp] theorem setSpeeds_held (cfg : Config) (l r : Int) (s : State) : (setSpeeds cfg l r s).held = s.held := rfl
@[simp] theorem setSpeeds_resets (cfg : Config) (l r : Int) (s : State) : (setSpeeds cfg l r s).resets = s.resets := rfl
@[simp] theorem setSpeeds_left (cfg : Config) (l r : Int) (s : State) :
    (setSpeeds cfg l r s).left = s.left.drive (mapPercent cfg l s.left.top.toNat) := rfl
@[simp] theorem setSpeeds_right (cfg : Config) (l r : Int) (s : State) :
    (setSpeeds cfg l r s).right = s.right.drive (mapPercent cfg r s.right.top.toNat) := rfl
@[simp] theorem setSpeeds_trace (cfg : Config) (l r : Int) (s : State) :
    (setSpeeds cfg l r s).trace = s.trace ++ [.motor (setSpeeds cfg l r s).left.dir (setSpeeds cfg l r s).right.dir
      (setSpeeds cfg l r s).left.duty (setSpeeds cfg l r s).right.duty] := rfl
@[simp] theorem initialised_echoPending (cfg : Config) (s : State) : (initialised cfg s).echoPending = s.echoPending := rfl
@[simp] theorem initialised_echoByte (cfg : Config) (s : State) : (initialised cfg s).echoByte = s.echoByte := rfl
@[simp] theorem initialised_host (cfg : Config) (s : State) : (initialised cfg s).host = s.host := rfl
@[simp] theorem initialised_held (cfg : Config) (s : State) : (initialised cfg s).held = s.held := rfl
@[simp] theorem initialised_resets (cfg : Config) (s : State) : (initialised cfg s).resets = s.resets := rfl
@[simp] theorem initialised_initDone (cfg : Config) (s : State) : (initialised cfg s).initDone = true := rfl
@[simp] theorem initialised_dirOe (cfg : Config) (s : State) : (initialised cfg s).dirOe = true := rfl
@[simp] theorem initialised_pwmEn (cfg : Config) (s : State) : (initialised cfg s).pwmEn = true := rfl
@[simp] theorem initialised_left (cfg : Config) (s : State) : (initialised cfg s).left = Channel.initialised cfg := rfl
@[simp] theorem initialised_right (cfg : Config) (s : State) : (initialised cfg s).right = Channel.initialised cfg := rfl
@[simp] theorem initialised_trace (cfg : Config) (s : State) :
    (initialised cfg s).trace = s.trace ++ [.motor true true 0 0] := rfl

/-! ## Channels -/

@[simp] theorem State.ch_L (s : State) : s.ch .L = s.left := rfl
@[simp] theorem State.ch_R (s : State) : s.ch .R = s.right := rfl
@[simp] theorem Channel.drive_top (ch : Channel) (m : Mapped) : (ch.drive m).top = ch.top := rfl
@[simp] theorem Channel.drive_div (ch : Channel) (m : Mapped) : (ch.drive m).div = ch.div := rfl
@[simp] theorem Channel.drive_cnt (ch : Channel) (m : Mapped) : (ch.drive m).cnt = ch.cnt := rfl
@[simp] theorem Channel.drive_act (ch : Channel) (m : Mapped) : (ch.drive m).act = ch.act := rfl
@[simp] theorem Channel.drive_dir (ch : Channel) (m : Mapped) : (ch.drive m).dir = m.dir := rfl
@[simp] theorem Channel.drive_duty (ch : Channel) (m : Mapped) : (ch.drive m).duty = BitVec.ofNat countWidth m.duty := rfl
@[simp] theorem Channel.drive_speed (ch : Channel) (m : Mapped) : (ch.drive m).speed = BitVec.ofInt speedWidth m.percent := rfl
@[simp] theorem Channel.tick_speed (ch : Channel) : ch.tick.speed = ch.speed := by
  unfold Channel.tick; split <;> rfl
@[simp] theorem Channel.tick_dir (ch : Channel) : ch.tick.dir = ch.dir := by
  unfold Channel.tick; split <;> rfl
@[simp] theorem Channel.tick_duty (ch : Channel) : ch.tick.duty = ch.duty := by
  unfold Channel.tick; split <;> rfl
@[simp] theorem Channel.tick_top (ch : Channel) : ch.tick.top = ch.top := by
  unfold Channel.tick; split <;> rfl
@[simp] theorem Channel.tick_div (ch : Channel) : ch.tick.div = ch.div := by
  unfold Channel.tick; split <;> rfl
@[simp] theorem Channel.tick_cnt (ch : Channel) : ch.tick.cnt = if ch.cnt = ch.top then 0 else ch.cnt + 1 := by
  unfold Channel.tick; split <;> rfl
@[simp] theorem Channel.tick_act (ch : Channel) : ch.tick.act = if ch.cnt = ch.top then ch.duty else ch.act := by
  unfold Channel.tick; split <;> rfl
@[simp] theorem Channel.unspecified_cnt (n : Nat) (c : ChannelId) : (Channel.unspecified n c).cnt = 0 := rfl

/-! ## The tick, channel by channel -/

theorem State.tick_of_enabled (s : State) (h : s.pwmEn = true) (c : ChannelId) : s.tick.ch c = (s.ch c).tick := by
  cases c <;> simp [State.tick, h]
theorem State.tick_of_disabled (s : State) (h : s.pwmEn = false) : s.tick = s := by
  simp [State.tick, h]
@[simp] theorem State.tick_left_speed (s : State) : s.tick.left.speed = s.left.speed := by
  unfold State.tick; split <;> simp
@[simp] theorem State.tick_left_dir (s : State) : s.tick.left.dir = s.left.dir := by
  unfold State.tick; split <;> simp
@[simp] theorem State.tick_left_duty (s : State) : s.tick.left.duty = s.left.duty := by
  unfold State.tick; split <;> simp
@[simp] theorem State.tick_left_top (s : State) : s.tick.left.top = s.left.top := by
  unfold State.tick; split <;> simp
@[simp] theorem State.tick_left_div (s : State) : s.tick.left.div = s.left.div := by
  unfold State.tick; split <;> simp
@[simp] theorem State.tick_right_speed (s : State) : s.tick.right.speed = s.right.speed := by
  unfold State.tick; split <;> simp
@[simp] theorem State.tick_right_dir (s : State) : s.tick.right.dir = s.right.dir := by
  unfold State.tick; split <;> simp
@[simp] theorem State.tick_right_duty (s : State) : s.tick.right.duty = s.right.duty := by
  unfold State.tick; split <;> simp
@[simp] theorem State.tick_right_top (s : State) : s.tick.right.top = s.right.top := by
  unfold State.tick; split <;> simp
@[simp] theorem State.tick_right_div (s : State) : s.tick.right.div = s.right.div := by
  unfold State.tick; split <;> simp

end Sys2Proof.Machine
end

