-- ==== Sys2Proof/Laws/Mapper.lean ====
section
/-! SUPPORT. What the mapper does, once: the clamp by its cases, and what a driven channel holds when the configuration is
legal. -/

namespace Sys2Proof.Machine

/-- A legal configuration meets the constraints of R8. -/
theorem legal_constraints {cfg : Config} (h : cfg.Legal) : cfg.Constraints := of_decide_eq_true h

/-- The clamp as a minimum and a maximum, when the bounds are in order. -/
theorem clamp_eq_max_min (v lo hi : Int) (h : lo ≤ hi) : clamp v lo hi = max lo (min hi v) := by
  unfold clamp; split
  · omega
  · split <;> omega

theorem clamp_mem (v lo hi : Int) (h : lo ≤ hi) : lo ≤ clamp v lo hi ∧ clamp v lo hi ≤ hi := by
  rw [clamp_eq_max_min v lo hi h]; omega

/-- Clamping twice is clamping once. -/
theorem clamp_clamp (v lo hi : Int) (h : lo ≤ hi) : clamp (clamp v lo hi) lo hi = clamp v lo hi := by
  simp only [clamp_eq_max_min _ _ _ h]; omega

theorem polarity_iff (c : Int) : polarity c = true ↔ 0 ≤ c := by simp [polarity]

/-- A magnitude of at most the divisor gives a duty level of at most the carrier top. -/
theorem dutyLevel_le (cfg : Config) (top m : Nat) (h : m ≤ cfg.pctDen) : dutyLevel cfg top m ≤ top := by
  unfold dutyLevel
  rcases Nat.eq_zero_or_pos cfg.pctDen with h0 | h0
  · simp [h0]
  · exact Nat.div_le_of_le_mul (by rw [Nat.mul_comm]; exact Nat.mul_le_mul_right _ h)

/-- The clamped percent of a legal configuration, and its magnitude. -/
theorem legal_percent (cfg : Config) (h : cfg.Legal) (p : Int) :
    (cfg.pctMin ≤ clamp p cfg.pctMin cfg.pctMax ∧ clamp p cfg.pctMin cfg.pctMax ≤ cfg.pctMax) ∧
      magnitude (clamp p cfg.pctMin cfg.pctMax) ≤ cfg.pctDen := by
  obtain ⟨h1, h2, h3, _⟩ := legal_constraints h
  have hm := clamp_mem p cfg.pctMin cfg.pctMax (by omega)
  refine ⟨hm, ?_⟩
  unfold magnitude; omega

/-- A value in the range of a legal configuration is held exactly by a SPEED register (R8, R21). -/
theorem speedWord_toInt (cfg : Config) (h : cfg.Legal) (v : Int) (h1 : cfg.pctMin ≤ v) (h2 : v ≤ cfg.pctMax) :
    (BitVec.ofInt speedWidth v).toInt = v := by
  obtain ⟨e1, _, _, _, e5, _⟩ := legal_constraints h
  have e5' : cfg.pctMax < 128 := by simpa [speedWidth] using e5
  rw [BitVec.toInt_ofInt, Int.bmod_def]
  simp only [speedWidth]
  omega

/-- What `MAP` leaves in a channel of a legally configured machine (R29, R84). -/
theorem drive_mapPercent (cfg : Config) (h : cfg.Legal) (p : Int) (ch : Channel) :
    (ch.drive (mapPercent cfg p ch.top.toNat)).speed.toInt = clamp p cfg.pctMin cfg.pctMax ∧
    (ch.drive (mapPercent cfg p ch.top.toNat)).dir = polarity (clamp p cfg.pctMin cfg.pctMax) ∧
    (ch.drive (mapPercent cfg p ch.top.toNat)).duty.toNat =
      ch.top.toNat * (clamp p cfg.pctMin cfg.pctMax).natAbs / cfg.pctDen := by
  obtain ⟨⟨h1, h2⟩, h3⟩ := legal_percent cfg h p
  refine ⟨speedWord_toInt cfg h _ h1 h2, rfl, ?_⟩
  have hle := dutyLevel_le cfg ch.top.toNat _ h3
  have hlt := ch.top.isLt
  simp only [Channel.drive_duty, mapPercent, BitVec.toNat_ofNat]
  rw [Nat.mod_eq_of_lt (by omega)]
  rfl

/-- The built configuration meets R8. -/
@[simp] theorem built_legal : Config.built.legal = true := by decide

/-- On the built machine the clamp is that of `clampedPercent`'s bounds. -/
theorem clamp_built (p : Int) : clamp p Config.built.pctMin Config.built.pctMax = max (-100) (min 100 p) :=
  clamp_eq_max_min p _ _ (by decide)

end Sys2Proof.Machine
end

