-- ==== Sys2Proof/Laws/Ops.lean ====
section
/-! SUPPORT. What each shared operation can do, once: callers cite these and do not unfold the operations. -/

namespace Sys2Proof.Machine

theorem whenInitialised_built (s k : State) :
    whenInitialised Config.built s k = if s.initDone = false then .refused .beforeInit else .next k := by
  simp [whenInitialised]

/-- A gated operation answers next only in an initialised state, with the state it was given. -/
theorem whenInitialised_next {cfg : Config} {s k t : State} (h : whenInitialised cfg s k = .next t) :
    cfg.Legal ∧ s.initDone = true ∧ t = k := by
  unfold whenInitialised at h
  split at h
  · cases h
  · split at h
    · cases h
    · cases h; simp_all [Config.Legal]

/-- INIT answers next only in an uninitialised state (R96, R97). -/
theorem initialise_next {cfg : Config} {s t : State} (h : initialise cfg s = .next t) :
    cfg.Legal ∧ s.initDone = false ∧ t = initialised cfg s := by
  unfold initialise at h
  split at h
  · cases h
  · split at h
    · cases h
    · cases h; simp_all [Config.Legal]

/-- `SET_SPEED` answers next only in an initialised state (R98, R102). -/
theorem setSpeed_next {cfg : Config} {l r : Int} {s t : State} (h : setSpeed cfg l r s = .next t) :
    cfg.Legal ∧ s.initDone = true ∧ t = setSpeeds cfg l r s :=
  whenInitialised_next h

/-- `CMD b` answers next only in an initialised state: the dispatch, then the echo (R112, R123). -/
theorem command_next {cfg : Config} {b : Byte} {s t : State} (h : command cfg b s = .next t) :
    cfg.Legal ∧ s.initDone = true ∧ t = (dispatch cfg (decodeDirective cfg b) s).sendEcho b :=
  whenInitialised_next h

/-- A dispatch is one SET_SPEED or nothing (R111). -/
theorem dispatch_cases (cfg : Config) (d : Directive) (s : State) :
    (∃ p, directiveSpeeds cfg d = some p ∧ dispatch cfg d s = setSpeeds cfg p.1 p.2 s) ∨
      (directiveSpeeds cfg d = none ∧ dispatch cfg d s = s) := by
  unfold dispatch
  cases h : directiveSpeeds cfg d with
  | none => exact .inr ⟨rfl, rfl⟩
  | some p => exact .inl ⟨p, rfl, rfl⟩

/-- Executing `CMD b` through its decoded case is the general rule R112 at `b`. -/
theorem exec_commandInstr (b : Byte) (s : State) : exec (commandInstr b) s = command Config.built b s := by
  unfold commandInstr decodeDirective
  split
  · next h => split at h <;> first | (subst b; rfl) | (split at h <;> first | cases h | (split at h <;> cases h))
  · next h => split at h <;> first | cases h | (split at h <;> first | (subst b; rfl) | (split at h <;> cases h))
  · next h =>
      split at h <;> first | cases h | (split at h <;> first | cases h | (split at h <;> first | (subst b; rfl) | cases h))
  · next h =>
      split at h <;> first | cases h | (split at h <;> first | cases h | (split at h <;> cases h)); rfl

/-- Everything `exec` can answer next with. -/
theorem exec_next_cases {i : Instr} {s t : State} (h : exec i s = .next t) :
    (i = .nop ∧ t = s) ∨ (i = .init ∧ s.initDone = false ∧ t = initialised Config.built s) ∨
    (s.initDone = true ∧ ∃ l r, i = .setSpeed l r ∧ t = setSpeeds Config.built l r s) ∨
    (s.initDone = true ∧ ∃ b, (i = .cmdF ∧ b = Config.built.byteFwd ∨ i = .cmdB ∧ b = Config.built.byteBwd ∨
        i = .cmdS ∧ b = Config.built.byteStop ∨ i = .cmdUnknown b) ∧
      t = (dispatch Config.built (decodeDirective Config.built b) s).sendEcho b) := by
  cases i with
  | nop => cases h; exact .inl ⟨rfl, rfl⟩
  | init => obtain ⟨-, h1, h2⟩ := initialise_next (cfg := Config.built) h; exact .inr (.inl ⟨rfl, h1, h2⟩)
  | setSpeed l r => obtain ⟨-, h1, h2⟩ := setSpeed_next (cfg := Config.built) h; exact .inr (.inr (.inl ⟨h1, l, r, rfl, h2⟩))
  | cmdF => obtain ⟨-, h1, h2⟩ := command_next (cfg := Config.built) h; exact .inr (.inr (.inr ⟨h1, _, .inl ⟨rfl, rfl⟩, h2⟩))
  | cmdB => obtain ⟨-, h1, h2⟩ := command_next (cfg := Config.built) h; exact .inr (.inr (.inr ⟨h1, _, .inr (.inl ⟨rfl, rfl⟩), h2⟩))
  | cmdS => obtain ⟨-, h1, h2⟩ := command_next (cfg := Config.built) h; exact .inr (.inr (.inr ⟨h1, _, .inr (.inr (.inl ⟨rfl, rfl⟩)), h2⟩))
  | cmdUnknown b => obtain ⟨-, h1, h2⟩ := command_next (cfg := Config.built) h; exact .inr (.inr (.inr ⟨h1, b, .inr (.inr (.inr rfl)), h2⟩))

/-- Every operation but NOP and INIT is the same gate around its own writes. -/
theorem exec_init_eq (s : State) :
    exec .init s = if s.initDone = true then .refused .reinit else .next (initialised Config.built s) := by
  simp [exec, execInit, initialise]

theorem exec_setSpeed_eq (l r : Int) (s : State) :
    exec (.setSpeed l r) s = if s.initDone = false then .refused .beforeInit else .next (setSpeeds Config.built l r s) :=
  whenInitialised_built s _

end Sys2Proof.Machine
end

