-- ==== Sys2Proof/Laws/PerInstr.lean ====
section
/-! SUPPORT. Per-instruction laws: for each operation the op field of its word is the code of R67, and every
canonical request has zeros in the fields the operation does not use (R68). -/

namespace Sys2Proof.Laws

/-- The op code R67 gives an operation. -/
def EncodedFields.code (i : Instr) : Nat :=
  match i with
  | .nop => 0
  | .cmdF => 1
  | .cmdB => 1
  | .cmdS => 1
  | .cmdUnknown _ => 1
  | .setSpeed _ _ => 2
  | .init => 3

/-- Whether an operation uses the byte field (R68). -/
def EncodedFields.usesByte (i : Instr) : Bool :=
  EncodedFields.code i == 1

/-- Whether an operation uses the operand fields (R68). -/
def EncodedFields.usesOperands (i : Instr) : Bool :=
  EncodedFields.code i == 2

/-- R67 and R68 for one operation's word. -/
def EncodedFields.Statement (i : Instr) : Prop :=
  (unpackRequest (encode i)).op.toNat = EncodedFields.code i ∧
  (EncodedFields.usesByte i = false → (unpackRequest (encode i)).byte = 0) ∧
  (EncodedFields.usesOperands i = false → (unpackRequest (encode i)).left = 0 ∧ (unpackRequest (encode i)).right = 0)

theorem EncodedFields.nop : EncodedFields.Statement .nop := by
  refine ⟨?_, ?_, ?_⟩ <;> rw [encode, unpackRequest_packRequest] <;> simp [encodeRequest, opNop, EncodedFields.code]

theorem EncodedFields.cmdF : EncodedFields.Statement .cmdF := by
  refine ⟨?_, ?_, ?_⟩ <;> rw [encode, unpackRequest_packRequest] <;>
    simp [encodeRequest, opCmd, EncodedFields.code, EncodedFields.usesByte]

theorem EncodedFields.cmdB : EncodedFields.Statement .cmdB := by
  refine ⟨?_, ?_, ?_⟩ <;> rw [encode, unpackRequest_packRequest] <;>
    simp [encodeRequest, opCmd, EncodedFields.code, EncodedFields.usesByte]

theorem EncodedFields.cmdS : EncodedFields.Statement .cmdS := by
  refine ⟨?_, ?_, ?_⟩ <;> rw [encode, unpackRequest_packRequest] <;>
    simp [encodeRequest, opCmd, EncodedFields.code, EncodedFields.usesByte]

theorem EncodedFields.cmdUnknown (b : Byte) : EncodedFields.Statement (.cmdUnknown b) := by
  refine ⟨?_, ?_, ?_⟩ <;> rw [encode, unpackRequest_packRequest] <;>
    simp [encodeRequest, opCmd, EncodedFields.code, EncodedFields.usesByte]

theorem EncodedFields.setSpeed (l r : Int) : EncodedFields.Statement (.setSpeed l r) := by
  refine ⟨?_, ?_, ?_⟩ <;> rw [encode, unpackRequest_packRequest] <;>
    simp [encodeRequest, opSetSpeed, EncodedFields.code, EncodedFields.usesOperands]

theorem EncodedFields.init : EncodedFields.Statement .init := by
  refine ⟨?_, ?_, ?_⟩ <;> rw [encode, unpackRequest_packRequest] <;> simp [encodeRequest, opInit, EncodedFields.code]

end Sys2Proof.Laws
end

