-- ==== Sys2Proof/Laws/Step.lean ====
section
/-! SUPPORT. What one edge can do, once. -/

namespace Sys2Proof.Machine

/-- An edge that answers next is a reset edge, an accepted operation, or a quiet edge. -/
theorem step_next_cases {s t : State} (h : step s = .next t) :
    (s.edgeInput.rst = true ∧ t = (s.advance s.edgeInput.req).resetEdge) ∨
    (s.edgeInput.rst = false ∧ s.echoPending = false ∧
      ∃ r, s.edgeInput.req = some r ∧ s.accepted s.edgeInput = some r ∧ exec (decodeRequest r) (s.advance none).tick = .next t) ∨
    (s.edgeInput.rst = false ∧ s.accepted s.edgeInput = none ∧
      t = (s.advance s.edgeInput.req).quietEdge s.edgeInput.echoReady) := by
  unfold step at h
  split at h
  · next hr => cases h; exact .inl ⟨hr, rfl⟩
  · next hr =>
      have hr' : s.edgeInput.rst = false := by simpa using hr
      split at h
      · cases h
      · split at h
        · next r ha =>
            refine .inr (.inl ⟨hr', ?_, r, ?_, ha, h⟩) <;>
              simp only [State.accepted, State.reqReady, hr'] at ha <;> cases hp : s.echoPending <;> simp_all
        · next ha => cases h; exact .inr (.inr ⟨hr', ha, rfl⟩)

/-- The next edge's inputs are the head of the host's list, or idle. -/
theorem edgeInput_cons {s : State} {e : EdgeInput} {rest : List EdgeInput} (h : s.host = e :: rest) : s.edgeInput = e := by
  simp [State.edgeInput, h]

theorem edgeInput_nil {s : State} (h : s.host = []) : s.edgeInput = EdgeInput.idle := by
  simp [State.edgeInput, h]

/-- A quiet edge keeps everything but the counters, and takes the echo if ready. -/
theorem quietEdge_eq (s : State) (ready : Bool) :
    s.quietEdge ready = if ready then s.tick.takeEcho else s.tick := rfl

/-- One more step of a run is a step and the rest of the run. -/
theorem run_succ (k : Nat) (s : State) :
    Host.Core.run Sys2Proof.core (k + 1) s =
      match step s with
      | .next t => Host.Core.run Sys2Proof.core k t
      | .fault f => .fault f
      | .refused r => .refused r := by
  refine (Host.Core.run.eq_2 Sys2Proof.core s k).trans ?_
  cases h : step s <;> rw [show Sys2Proof.core.step s = _ from h]

theorem run_zero (s : State) : Host.Core.run Sys2Proof.core 0 s = .next s := rfl

theorem run_succ_next {k : Nat} {s t : State} (h : Host.Core.run Sys2Proof.core (k + 1) s = .next t) :
    ∃ u, step s = .next u ∧ Host.Core.run Sys2Proof.core k u = .next t := by
  rw [run_succ] at h
  cases hs : step s with
  | next u => rw [hs] at h; exact ⟨u, rfl, h⟩
  | fault f => rw [hs] at h; cases h
  | refused r => rw [hs] at h; cases h

end Sys2Proof.Machine
end

