-- ==== Sys2Proof/Tests/Slice0.lean ====
section
/-! SUPPORT. Tests: expected results are the spec's (`95_test_vectors.md` and the rules' worked examples), and one witness for
every statement that has hypotheses. -/

namespace Sys2Proof.Tests

open Sys2Proof.Machine

/-- The next state of an outcome, if it is one. -/
def nextOf (o : Host.Outcome State Fault Refusal) : Option State :=
  match o with
  | .next s => some s
  | .fault _ => none
  | .refused _ => none

/-- The refusal of an outcome, if it is one. -/
def refusalOf (o : Host.Outcome State Fault Refusal) : Option Refusal :=
  match o with
  | .next _ => none
  | .fault _ => none
  | .refused r => some r

/-- The state after reset and INIT. -/
def ready : State :=
  initialised Config.built State.reset

/-- An initialised machine with carrier top 9 (program P6), both channels with these values, the host presenting `es`. -/
def small (cnt act duty : Count) (es : List EdgeInput) : State :=
  let ch : Channel := { speed := 0, dir := true, duty := duty, top := 9, div := 1, cnt := cnt, act := act }
  { ready with left := ch, right := ch, host := es }

/-- An edge presenting an operation. -/
def edge (i : Instr) : EdgeInput :=
  { rst := false, req := some (encodeRequest i), echoReady := false }

/-- An initialised machine with an echo of `b` pending, the host presenting `es`. -/
def echoing (b : Byte) (es : List EdgeInput) : State :=
  { ready with echoPending := true, echoByte := b, host := es }

/-- The registers a vector of section 2 prints: SPEED, DIR, DUTY. -/
def regs (sl sr : SpeedWord) (dl dr : Bool) (ul ur : Count) : MotorRegs :=
  { speedL := sl, speedR := sr, dirL := dl, dirR := dr, dutyL := ul, dutyR := ur }

/-! ## WellFormed refuses ill-formed terms (R69, R116) -/

theorem test_wellFormed_left_too_big : (Instr.setSpeed 2147483648 0).wellFormed = false := by decide
theorem test_wellFormed_left_too_small : (Instr.setSpeed (-2147483649) 0).wellFormed = false := by decide
theorem test_wellFormed_right_too_big : (Instr.setSpeed 0 2147483648).wellFormed = false := by decide
theorem test_wellFormed_right_too_small : (Instr.setSpeed 0 (-2147483649)).wellFormed = false := by decide
theorem test_wellFormed_unknown_f : (Instr.cmdUnknown 0x46).wellFormed = false := by decide
theorem test_wellFormed_unknown_b : (Instr.cmdUnknown 0x42).wellFormed = false := by decide
theorem test_wellFormed_unknown_s : (Instr.cmdUnknown 0x53).wellFormed = false := by decide

/-! ## Decoding: words written out bit by bit from R66 (op, byte, left, right), and the rest of the vectors -/

theorem test_decode_nop : decodeWord (0b00#2 ++ 0b00000000#8 ++ 0#32 ++ 0#32) = .nop := by decide
theorem test_decode_cmdF : decodeWord (0b01#2 ++ 0b01000110#8 ++ 0#32 ++ 0#32) = .cmdF := by decide
theorem test_decode_cmdB : decodeWord (0b01#2 ++ 0b01000010#8 ++ 0#32 ++ 0#32) = .cmdB := by decide
theorem test_decode_cmdS : decodeWord (0b01#2 ++ 0b01010011#8 ++ 0#32 ++ 0#32) = .cmdS := by decide
theorem test_decode_cmdUnknown : decodeWord (0b01#2 ++ 0b11000110#8 ++ 0#32 ++ 0#32) = .cmdUnknown 0xC6 := by decide
theorem test_decode_setSpeed : decodeWord 0x2007FFFFFFF80000000#74 = .setSpeed 2147483647 (-2147483648) := by decide
theorem test_decode_setSpeed_zero : decodeWord 0x200FFFFFFFF00000000#74 = .setSpeed (-1) 0 := by decide
theorem test_decode_init : decodeWord (0b11#2 ++ 0b10101011#8 ++ 1#32 ++ 2#32) = .init := by decide
theorem test_encode_setSpeed : encode (.setSpeed 20 (-20)) = 0x20000000014FFFFFFEC#74 := by decide
theorem test_encode_cmdUnknown : encode (.cmdUnknown 0x0A) = 0x10A0000000000000000#74 := by decide
theorem test_decodeTableWord_init : decodeTableWord 80 0x3000000000000000000 = some .init := by decide
theorem test_decodeNat_too_wide : decodeTableWord 80 0x4000000000000000000 = none := by decide

/-! ## Text (R72, R73) -/

theorem test_text_hex_and_comment : readLine ['C', 'M', 'D', ' ', '0', 'x', '0', 'A', ' ', ';', 'F'] = .operation (.cmdUnknown 0x0A) := by decide
theorem test_text_hex_letters : readByte ['0', 'x', 'f', 'A'] = some 0xFA ∧ readByte ['0', 'x', '0', 'G'] = none ∧
    readNat ['1', 'A'] = none := by decide
theorem test_text_semicolon_byte : readLine ['C', 'M', 'D', ' ', '\'', ';', '\''] = .operation (.cmdUnknown 0x3B) := by decide
theorem test_text_negative : readLine ['S', 'E', 'T', '_', 'S', 'P', 'E', 'E', 'D', ' ', '-', '1', ',', ' ', '0'] = .operation (.setSpeed (-1) 0) := by decide
theorem test_text_lower_case : readLine ['n', 'o', 'p'] = .malformed := by decide
theorem test_text_assemble : assembleLine ['I', 'N', 'I', 'T'] = some 0x3000000000000000000#74 := by decide

/-! ## The mapper (section 2.1) -/

theorem test_map_most_negative : mapPercent Config.built (-2147483648) 6249 = { percent := -100, dir := false, duty := 6249 } := by decide
theorem test_map_fifty : mapPercent Config.built 50 6249 = { percent := 50, dir := true, duty := 3124 } := by decide
theorem test_map_small_top : mapPercent Config.built 11 9 = { percent := 11, dir := true, duty := 0 } := by decide

/-! ## The operations (sections 1, 2.3, 2.4) -/

theorem test_init_after_reset : (nextOf (exec .init State.reset)).map (fun s => (s.motorRegs, s.left.top, s.trace)) =
    some (regs 0 0 true true 0 0, 6249, [.motor true true 0 0]) := by decide
theorem test_init_twice : refusalOf (exec .init ready) = some .reinit := by decide
theorem test_setSpeed_mixed : (nextOf (exec (.setSpeed 55 (-73)) ready)).map State.motorRegs = some (regs 55 (-73) true false 3436 4561) := by decide
theorem test_setSpeed_before_init : refusalOf (exec (.setSpeed 20 20) State.reset) = some .beforeInit := by decide
theorem test_cmdF_registers : (nextOf (exec .cmdF ready)).map State.motorRegs = some (regs 20 20 true true 1249 1249) := by decide
theorem test_cmdB_registers : (nextOf (exec .cmdB ready)).map State.motorRegs = some (regs (-20) (-20) false false 1249 1249) := by decide
theorem test_cmdS_from_reverse : (nextOf (exec .cmdS (setSpeeds Config.built (-55) 73 ready))).map State.motorRegs = some (regs 0 0 true true 0 0) := by decide
theorem test_cmdUnknown_keeps : (nextOf (exec (.cmdUnknown 0x51) (setSpeeds Config.built 55 (-73) ready))).map State.motorRegs = some (regs 55 (-73) true false 3436 4561) := by decide
theorem test_cmdUnknown_before_init : refusalOf (exec (.cmdUnknown 0x51) State.reset) = some .beforeInit := by decide
theorem test_nop_after_reset : nextOf (exec .nop State.reset) = some State.reset := by decide

/-- R157, `bad_config`, of the operations parameterised by a configuration. -/
theorem test_bad_config : refusalOf (setSpeed { Config.built with clockDivider := 2 } 20 20 ready) = some .badConfig ∧
    refusalOf (initialise { Config.built with carrierTop := 65536 } State.reset) = some .badConfig := by decide

/-! ## One edge (P6, section 1 of `70_reset_and_hazards.md`, and R42, R43) -/

/-- P6, edge 4. -/
theorem test_edge_setSpeed : (nextOf (step (small 3 0 0 [edge (.setSpeed 40 40)]))).map (fun s => (s.left.cnt, s.left.act, s.left.duty)) = some (4, 0, 3) := by decide

/-- P6, edge 10. -/
theorem test_edge_wrap : (nextOf (step (small 9 0 3 []))).map (fun s => (s.left.cnt, s.left.act, s.pwmPin .L)) = some (0, 3, some true) := by decide

/-- P6, edge 20: a write on a wrap edge waits, the direction pin changes at once. -/
theorem test_edge_wrap_and_write : (nextOf (step (small 9 3 3 [edge (.setSpeed (-80) (-80))]))).map (fun s => (s.left.cnt, s.left.act, s.left.duty, s.dirPin .L)) = some (0, 3, 7, some false) := by decide

/-- P6, edge 13: the pin is low from the compare value on. -/
theorem test_edge_pin_low : (nextOf (step (small 2 3 3 []))).map (fun s => s.pwmPin .R) = some (some false) := by decide

theorem test_edge_cmd_waits_for_echo : (nextOf (step (echoing 0x46 [edge .cmdS]))).map (fun s => (s.motorRegs == ready.motorRegs, s.echoPending, s.held)) = some (true, true, some (encodeRequest .cmdS)) := by decide
theorem test_edge_echo_taken : (nextOf (step (echoing 0x51 [{ EdgeInput.idle with echoReady := true }]))).map (fun s => (s.echoPending, s.trace)) = some (false, [.motor true true 0 0, .echo 0x51]) := by decide

/-- R174: the edge takes the echo and leaves a request waiting, so the run is not over; with no request it is. -/
theorem test_edge_run_over :
    (nextOf (step (echoing 0x46 [{ edge .cmdS with echoReady := true }]))).map (fun s => (s.echoPending, s.runOver)) = some (false, false) ∧
    (nextOf (step (echoing 0x46 [{ EdgeInput.idle with echoReady := true }]))).map State.runOver = some true := by decide
theorem test_edge_reset_drops_echo : (nextOf (step (echoing 0x51 [{ edge .init with rst := true }]))).map (fun s => (s.initDone, s.echoPending, s.trace)) = some (false, false, [.motor true true 0 0]) := by decide
theorem test_edge_withFetchWord : nextOf (step (State.reset.withFetchWord 80 0x3000000000000000000)) = some ready := by decide

/-! ## Witnesses: a concrete case that meets the hypotheses of each statement that has some -/

theorem witness_DecodeOfEncodeIsIdentity : (Instr.setSpeed (-2147483648) 2147483647).WellFormed ∧ (Instr.cmdUnknown 0xFF).WellFormed ∧
    Instr.init.WellFormed := by decide
theorem witness_CommandByteDecoderIsTotal : (0x00 : Byte) ≠ BitVec.ofNat 8 'F'.toNat ∧ (0x00 : Byte) ≠ BitVec.ofNat 8 'B'.toNat ∧
    (0x00 : Byte) ≠ BitVec.ofNat 8 'S'.toNat := by decide
theorem witness_ClampSaturatesAtBothBounds : (-101 : Int) < -100 ∧ (100 : Int) < 101 ∧ ((-100 : Int) ≤ -100 ∧ (-100 : Int) ≤ 100) ∧
    ((-100 : Int) ≤ 100 ∧ (100 : Int) ≤ 100) := by decide
theorem witness_DutyLevelIsFloorOfExactProduct : (100 : Nat) ≤ 100 := by decide
theorem witness_MapperResultsStayInRange : (100 : Nat) ≤ 100 ∧ (0 : Nat) < 1 := by decide
theorem witness_EveryLegalConfigurationMapsInRange : Config.built.Legal ∧
    ({ Config.built with carrierTop := 65535, pctMin := -127, pctMax := 127, pctDen := 127 } : Config).Legal := by decide
theorem witness_MapperIsSymmetricMonotoneSaturating : (100 : Int) ≤ 100 ∧ (-100 : Int) ≤ -100 ∧
    dutyLevel Config.built 6249 100 = dutyLevel Config.built 6249 100 ∧
    (mapPercent Config.built 1 6249).percent.natAbs ≤ (mapPercent Config.built (-2) 6249).percent.natAbs := by decide
theorem witness_SetSpeedClampsAndDrivesBothChannels : ready.initDone = true ∧ State.reset.initDone = false := by decide
theorem witness_SetSpeedChannelsAreIndependent :
    (∃ t, exec (.setSpeed 20 5) ready = .next t) ∧ (∃ t, exec (.setSpeed 20 (-7)) ready = .next t) ∧ ready.left.top = ready.left.top ∧
    (∃ t, exec (.setSpeed 5 20) ready = .next t) ∧ ready.right.top = ready.right.top :=
  ⟨⟨_, rfl⟩, ⟨_, rfl⟩, rfl, ⟨_, rfl⟩, rfl⟩
theorem witness_SetSpeedIsMemorylessAndIdempotent : ready.initDone = true ∧
    (setSpeeds Config.built 55 1 ready).left.top = ready.left.top ∧ (setSpeeds Config.built 55 1 ready).right.top = ready.right.top ∧
    (∃ t, exec (.setSpeed 20 20) ready = .next t) ∧ (∃ t, exec (.setSpeed 20 20) (setSpeeds Config.built 55 1 ready) = .next t) :=
  ⟨rfl, rfl, rfl, ⟨_, rfl⟩, ⟨_, rfl⟩⟩
theorem witness_InitConfiguresBothChannels : State.reset.initDone = false := rfl
theorem witness_SecondInitIsRefused : ready.initDone = true := rfl
theorem witness_MotorOperationsBeforeInitAreRefused : State.reset.initDone = false := rfl
theorem witness_MeaningfulOperationsNeverFault : (Instr.cmdF ≠ .init ∧ ready.initDone = true) ∧ State.reset.initDone = false := by decide

/-- The invariant holds after reset and after INIT. -/
theorem witness_inv_ready : Inv ready := by
  refine ⟨rfl, rfl, ?_, rfl, fun h => absurd h (by decide), fun h => absurd h (by decide)⟩
  intro _ c
  cases c <;> constructor <;> decide

theorem witness_CarrierParametersAreFixedAtInit : (∃ t, exec .init State.reset = .next t) ∧ (∃ t, step ready = .next t) ∧
    ready.initDone = true ∧ ready.edgeInput.rst = false ∧ Inv ready :=
  ⟨⟨_, rfl⟩, ⟨_, rfl⟩, rfl, rfl, witness_inv_ready⟩

/-- The four command statements. -/
theorem witness_commands : ready.initDone = true ∧ (∀ c, (ready.ch c).top = 6249) ∧
    (0x51 : Byte) ≠ 0x46 ∧ (0x51 : Byte) ≠ 0x42 ∧ (0x51 : Byte) ≠ 0x53 := by
  refine ⟨rfl, fun c => by cases c <;> rfl, ?_⟩
  decide
theorem witness_CommandDispatchesThenEchoes : ready.initDone = true ∧ State.reset.initDone = false ∧
    decodeDirective Config.built 0x46 = .forward ∧ decodeDirective Config.built 0x42 = .backward ∧
    decodeDirective Config.built 0x53 = .stop ∧ decodeDirective Config.built 0xFF = .unknown 0xFF := by decide
theorem witness_CommandLeavesOneOfFourSettings : (∃ t, exec (commandInstr 0x42) ready = .next t) ∧
    (∃ t, exec (commandInstr 0x00) ready = .next t) := ⟨⟨_, rfl⟩, ⟨_, rfl⟩⟩
theorem witness_RepeatedCommandLeavesTheSameState : ready.initDone = true := rfl
theorem witness_NopsBetweenOperationsChangeNothing : ready.echoPending = false := rfl
theorem witness_CanonicalLoopEchoesEveryByteInOrder : State.reset.initDone = false ∧ State.reset.echoPending = false := by decide
theorem witness_OperationsLeaveTheRestUnchanged : (∃ t, exec .init State.reset = .next t) ∧ (∃ t, exec (.setSpeed 1 2) ready = .next t) ∧
    (∃ t, exec .cmdF ready = .next t) ∧ (∃ t, exec .cmdB ready = .next t) ∧ (∃ t, exec .cmdS ready = .next t) ∧
    (Instr.cmdUnknown 0).WellFormed ∧ ∃ t, exec (.cmdUnknown 0) ready = .next t :=
  ⟨⟨_, rfl⟩, ⟨_, rfl⟩, ⟨_, rfl⟩, ⟨_, rfl⟩, ⟨_, rfl⟩, rfl, ⟨_, rfl⟩⟩
theorem witness_OnlyMotorOperationsWriteMotorRegisters :
    ∃ t, step { ready with host := [edge .cmdF] } = .next t ∧ ({ ready with host := [edge .cmdF] } : State).edgeInput.rst = false ∧
      t.motorRegs ≠ ({ ready with host := [edge .cmdF] } : State).motorRegs :=
  ⟨_, rfl, rfl, by decide⟩

/-- The other clause: an accepted INIT changes TOP. -/
theorem witness_only_init_writes_top :
    ∃ t, step { State.reset with host := [edge .init] } = .next t ∧ t.left.top ≠ State.reset.left.top :=
  ⟨_, rfl, by decide⟩
theorem witness_MotorStatePersistsBetweenOperations : ready.held = none ∧
    ∀ e ∈ ([EdgeInput.idle, { EdgeInput.idle with echoReady := true }] : List EdgeInput).take 2, e.rst = false ∧ e.req = none := by decide
theorem witness_OperationsDoNotReadTheSignalLayer : OpAgree ready { ready with left := { ready.left with cnt := 5, act := 3 } } := by
  constructor <;> first | rfl | (constructor <;> rfl)
theorem witness_StoredSpeedInfluencesNothing :
    EqualButSpeed ready { ready with left := { ready.left with speed := 100 }, right := { ready.right with speed := -100 } } := rfl
theorem witness_ResetEdgeOverridesEverything :
    (echoing 0x46 [{ edge .cmdF with rst := true }]).edgeInput.rst = true := by decide
theorem witness_EveryStepKeepsTheInvariant : Inv ready ∧ ∃ t, step ready = .next t := ⟨witness_inv_ready, ⟨_, rfl⟩⟩
theorem witness_UnspecifiedResetValuesReachNoOutput : Inv State.reset ∧
    SpecifiedAgree State.reset { State.reset with left := { Channel.reset with speed := 77, top := 3, act := 9 }, echoByte := 5 } := by
  constructor
  · refine ⟨rfl, rfl, fun h => absurd h (by decide), rfl, fun _ c => by cases c <;> rfl, fun _ => rfl⟩
  · exact ⟨rfl, rfl, rfl, fun c => by cases c <;> rfl, fun h => absurd h (by decide), rfl, fun h => absurd h (by decide),
      rfl, rfl, rfl, rfl⟩
theorem witness_AcceptingEdgeRunsDecodedOperation :
    ({ ready with host := [edge .cmdF] } : State).host = { rst := false, req := some (encodeRequest .cmdF), echoReady := false } :: [] ∧
      ready.echoPending = false ∧ (ready.held = none ∨ ready.held = some (encodeRequest .cmdF)) := ⟨rfl, rfl, .inl rfl⟩
theorem witness_EchoIsTransferredWhenReady :
    (echoing 0x46 [{ EdgeInput.idle with echoReady := true }]).echoPending = true ∧
      (echoing 0x46 [{ EdgeInput.idle with echoReady := true }]).held = none ∧
      (echoing 0x46 [{ EdgeInput.idle with echoReady := true }]).host = { rst := false, req := none, echoReady := true } :: [] :=
  ⟨rfl, rfl, rfl⟩
theorem witness_StatusAndEchoPortsShowTheRegisters : (echoing 0x51 []).initDone = true ∧ State.reset.initDone = false ∧
    (echoing 0x51 []).echoPending = true ∧ ready.echoPending = false := by decide
theorem witness_UntakenEchoStallsThenRequestIsAccepted :
    let r := encodeRequest .cmdS
    let s := echoing 0x46 [edge .cmdS, { edge .cmdS with echoReady := true }, edge .cmdS]
    s.echoPending = true ∧ (s.held = none ∨ s.held = some r) ∧
      s.host = List.replicate 1 { rst := false, req := some r, echoReady := false } ++
        { rst := false, req := some r, echoReady := true } :: { rst := false, req := some r, echoReady := false } :: [] :=
  ⟨rfl, .inl rfl, rfl⟩
theorem witness_ChangedWaitingRequestIsRefused :
    let s : State := { echoing 0x46 [edge .nop] with held := some (encodeRequest .cmdS) }
    s.held = some (encodeRequest .cmdS) ∧ s.edgeInput.rst = false ∧ s.edgeInput.req ≠ some (encodeRequest .cmdS) := by decide
theorem witness_ClockedRunIsRunOfAcceptedOperations :
    NoReset 2 { ready with host := [edge .cmdF, { EdgeInput.idle with echoReady := true }] } ∧
      ∃ t, Host.Core.run Sys2Proof.core 2 { ready with host := [edge .cmdF, { EdgeInput.idle with echoReady := true }] } = .next t := by
  refine ⟨?_, ⟨_, rfl⟩⟩
  unfold NoReset; decide
theorem witness_RunIsOverWhenAllIsAcceptedAndEchoed :
    ready.runOver = true ∧ (echoing 0x46 []).runOver = false ∧ ({ ready with host := [edge .nop] } : State).runOver = false ∧
      ({ ready with held := some (encodeRequest .cmdS) } : State).runOver = false ∧
      NoReset 1 ready ∧ (∃ t, Host.Core.run Sys2Proof.core (({ ready with host := [edge .nop] } : State).host.length + 1)
        { ready with host := [edge .nop] } = .next t ∧ t.echoPending = false) := by
  refine ⟨by decide, by decide, by decide, by decide, ?_, _, rfl, rfl⟩
  unfold NoReset; decide
theorem witness_CountersTickAtEveryEdge :
    (∃ t, step (small 9 3 3 [edge (.setSpeed 1 1)]) = .next t) ∧ (small 9 3 3 []).initDone = true ∧ (small 9 3 3 []).pwmEn = true ∧
      (small 9 3 3 [edge (.setSpeed 1 1)]).edgeInput.rst = false ∧ ((small 9 3 3 []).ch .L).cnt = ((small 9 3 3 []).ch .L).top ∧
      ((small 8 3 3 []).ch .L).cnt ≠ ((small 8 3 3 []).ch .L).top :=
  ⟨⟨_, rfl⟩, rfl, rfl, rfl, rfl, by decide⟩
theorem witness_CarrierPeriodKeepsItsLevel :
    Inv ready ∧ ready.initDone = true ∧ (ready.ch .L).cnt = 0 ∧ 2 ≤ (ready.ch .L).top.toNat ∧ NoReset 2 ready ∧
      ∃ t, Host.Core.run Sys2Proof.core 2 ready = .next t :=
  ⟨witness_inv_ready, rfl, rfl, by decide, by unfold NoReset; decide, ⟨_, rfl⟩⟩
/-- An initialised machine at full speed on the last count of a period. -/
def lastCount : State :=
  let ch : Channel := { speed := 100, dir := true, duty := 6249, top := 6249, div := 1, cnt := 6249, act := 6249 }
  { ready with left := ch, right := ch }

theorem witness_last_count : Inv lastCount ∧ lastCount.initDone = true ∧ (lastCount.ch .L).cnt = (lastCount.ch .L).top := by
  refine ⟨⟨rfl, rfl, ?_, rfl, fun h => absurd h (by decide), fun h => absurd h (by decide)⟩, rfl, rfl⟩
  intro _ c
  cases c <;> constructor <;> decide

theorem witness_PinsAreDrivenExactlyAfterInit : Inv ready ∧ ready.initDone = true ∧ Inv State.reset ∧ State.reset.initDone = false :=
  ⟨witness_inv_ready, rfl, witness_UnspecifiedResetValuesReachNoOutput.1, rfl⟩
theorem witness_DutyRatioStaysBelowOne : (6249 : Nat) ≤ 6249 := by decide

end Sys2Proof.Tests
end

section
/-! PROOFS. What the operations and the edges leave unchanged (`10_state.md` R24, R36): the carrier parameters at every
edge without reset, the whole motor state at every edge that accepts nothing. -/

namespace Sys2Proof.Machine

/-! ## The carrier parameters -/

/-- `INIT_DONE`, and `TOP` and `DIV` of both channels, are as before (R24). -/
structure KeepsCarrier (s t : State) : Prop where
  initDone : t.initDone = s.initDone
  top : ∀ c, (t.ch c).top = (s.ch c).top
  div : ∀ c, (t.ch c).div = (s.ch c).div

theorem KeepsCarrier.refl (s : State) : KeepsCarrier s s := ⟨rfl, fun _ => rfl, fun _ => rfl⟩

theorem KeepsCarrier.trans {s t u : State} (h : KeepsCarrier s t) (h' : KeepsCarrier t u) : KeepsCarrier s u where
  initDone := h'.initDone.trans h.initDone
  top c := (h'.top c).trans (h.top c)
  div c := (h'.div c).trans (h.div c)

theorem setSpeeds_keepsCarrier (cfg : Config) (l r : Int) (s : State) : KeepsCarrier s (setSpeeds cfg l r s) where
  initDone := setSpeeds_initDone cfg l r s
  top c := by cases c <;> simp
  div c := by cases c <;> simp

theorem sendEcho_keepsCarrier (s : State) (b : Byte) : KeepsCarrier s (s.sendEcho b) where
  initDone := s.sendEcho_initDone b
  top c := by cases c <;> rfl
  div c := by cases c <;> rfl

theorem dispatch_keepsCarrier (cfg : Config) (d : Directive) (s : State) : KeepsCarrier s (dispatch cfg d s) := by
  obtain ⟨p, -, h⟩ | ⟨-, h⟩ := dispatch_cases cfg d s
  · rw [h]; exact setSpeeds_keepsCarrier cfg p.1 p.2 s
  · rw [h]; exact .refl s

/-- The only operation that writes the carrier parameters is INIT, which an initialised state refuses (R24, R97). -/
theorem exec_keepsCarrier {i : Instr} {s t : State} (h : exec i s = .next t) (hi : s.initDone = true) :
    KeepsCarrier s t := by
  obtain ⟨-, rfl⟩ | ⟨-, h0, -⟩ | ⟨-, l, r, -, rfl⟩ | ⟨-, b, -, rfl⟩ := exec_next_cases h
  · exact .refl t
  · simp [hi] at h0
  · exact setSpeeds_keepsCarrier _ l r s
  · exact (dispatch_keepsCarrier _ _ s).trans (sendEcho_keepsCarrier _ b)

/-- The carrier parameters that INIT writes to a channel of the built machine (R24, R96). -/
theorem Channel.initialised_built_carrier :
    (Channel.initialised Config.built).top = 6249 ∧ (Channel.initialised Config.built).div = 1 := ⟨rfl, rfl⟩

theorem initialised_ch (cfg : Config) (s : State) (c : ChannelId) :
    (initialised cfg s).ch c = Channel.initialised cfg := by
  cases c <;> simp

/-- An invariant state after INIT has the configured carrier parameters on both channels, so they agree (R24, R29 (e)). -/
theorem Inv.carrier_eq {s : State} (h : Inv s) (hi : s.initDone = true) :
    s.left.top = s.right.top ∧ s.left.div = s.right.div :=
  have hL := h.channels hi .L
  have hR := h.channels hi .R
  ⟨BitVec.eq_of_toNat_eq (hL.top_eq.trans hR.top_eq.symm), hL.div_eq.trans hR.div_eq.symm⟩

/-! ## The motor state -/

/-- Everything the operations write but `ECHO_PENDING` and the trace is as before: only `CNT`, `ACT`, those two and the
host's fields may differ (R36). -/
structure KeepsMotorState (s t : State) : Prop extends KeepsCarrier s t where
  motorRegs : t.motorRegs = s.motorRegs
  dirOe : t.dirOe = s.dirOe
  pwmEn : t.pwmEn = s.pwmEn
  echoByte : t.echoByte = s.echoByte

theorem KeepsMotorState.refl (s : State) : KeepsMotorState s s := ⟨.refl s, rfl, rfl, rfl, rfl⟩

theorem KeepsMotorState.trans {s t u : State} (h : KeepsMotorState s t) (h' : KeepsMotorState t u) :
    KeepsMotorState s u where
  toKeepsCarrier := h.toKeepsCarrier.trans h'.toKeepsCarrier
  motorRegs := h'.motorRegs.trans h.motorRegs
  dirOe := h'.dirOe.trans h.dirOe
  pwmEn := h'.pwmEn.trans h.pwmEn
  echoByte := h'.echoByte.trans h.echoByte

theorem advance_keepsMotorState (s : State) (w : Option Request) : KeepsMotorState s (s.advance w) :=
  ⟨⟨rfl, fun c => by cases c <;> rfl, fun c => by cases c <;> rfl⟩, rfl, rfl, rfl, rfl⟩

theorem tick_keepsMotorState (s : State) : KeepsMotorState s s.tick where
  initDone := s.tick_initDone
  top c := by cases c <;> simp
  div c := by cases c <;> simp
  motorRegs := by simp [State.motorRegs]
  dirOe := s.tick_dirOe
  pwmEn := s.tick_pwmEn
  echoByte := s.tick_echoByte

theorem takeEcho_keepsMotorState (s : State) : KeepsMotorState s s.takeEcho where
  initDone := s.takeEcho_initDone
  top c := by cases c <;> simp
  div c := by cases c <;> simp
  motorRegs := by simp [State.motorRegs]
  dirOe := s.takeEcho_dirOe
  pwmEn := s.takeEcho_pwmEn
  echoByte := s.takeEcho_echoByte

theorem quietEdge_keepsMotorState (s : State) (ready : Bool) : KeepsMotorState s (s.quietEdge ready) := by
  rw [quietEdge_eq]
  split
  · exact (tick_keepsMotorState s).trans (takeEcho_keepsMotorState s.tick)
  · exact tick_keepsMotorState s

/-! ## One edge -/

@[simp] theorem State.quietEdge_host (s : State) (ready : Bool) : (s.quietEdge ready).host = s.host := by
  rw [quietEdge_eq]; split <;> simp

@[simp] theorem State.quietEdge_held (s : State) (ready : Bool) : (s.quietEdge ready).held = s.held := by
  rw [quietEdge_eq]; split <;> simp

/-- In an initialised state every edge without reset keeps the carrier parameters, whatever it accepts (R24). -/
theorem step_keepsCarrier {s t : State} (h : step s = .next t) (hi : s.initDone = true)
    (hr : s.edgeInput.rst = false) : KeepsCarrier s t := by
  obtain ⟨hr', -⟩ | ⟨-, -, r, -, -, hx⟩ | ⟨-, -, rfl⟩ := step_next_cases h
  · simp [hr] at hr'
  · have hk := (advance_keepsMotorState s none).trans (tick_keepsMotorState _)
    exact hk.toKeepsCarrier.trans (exec_keepsCarrier hx (hk.initDone.trans hi))
  · exact ((advance_keepsMotorState s _).trans (quietEdge_keepsMotorState _ _)).toKeepsCarrier

/-- An edge at which the host presents neither reset nor request, none waiting, is a quiet edge (R43, R132). -/
theorem step_of_no_request {s : State} (hh : s.held = none) (hr : s.edgeInput.rst = false)
    (hq : s.edgeInput.req = none) : step s = .next ((s.advance none).quietEdge s.edgeInput.echoReady) := by
  simp [step, State.keepsRequest, State.accepted, hh, hr, hq]

/-- What holds of the idle inputs and of the next `k + 1` edges' inputs holds of the coming edge's and of the `k` after
it. -/
theorem forall_take_succ_host {P : EdgeInput → Prop} (hidle : P EdgeInput.idle) {k : Nat} {s : State}
    (h : ∀ e ∈ s.host.take (k + 1), P e) : P s.edgeInput ∧ ∀ e ∈ s.host.tail.take k, P e := by
  cases hs : s.host with
  | nil => exact ⟨edgeInput_nil hs ▸ hidle, by simp⟩
  | cons e rest => simpa [hs, edgeInput_cons hs] using h

/-! ## A run without operations -/

/-- A run of edges at which the host presents neither reset nor request, none waiting, has a next state and keeps the
motor state (R36). -/
theorem run_keepsMotorState_of_no_request (k : Nat) (s : State) (hh : s.held = none)
    (hin : ∀ e ∈ s.host.take k, e.rst = false ∧ e.req = none) :
    ∃ t, Host.Core.run Sys2Proof.core k s = .next t ∧ KeepsMotorState s t := by
  induction k generalizing s with
  | zero => exact ⟨s, run_zero s, .refl s⟩
  | succ k ih =>
    obtain ⟨⟨hr, hq⟩, hrest⟩ := forall_take_succ_host ⟨rfl, rfl⟩ hin
    have hkeep : KeepsMotorState s ((s.advance none).quietEdge s.edgeInput.echoReady) :=
      (advance_keepsMotorState s none).trans (quietEdge_keepsMotorState _ _)
    obtain ⟨t, hrun, ht⟩ := ih ((s.advance none).quietEdge s.edgeInput.echoReady) (by simp) (by simpa using hrest)
    exact ⟨t, by rw [run_succ, step_of_no_request hh hr hq]; exact hrun, hkeep.trans ht⟩

/-! ## The obligations -/

/-- Settles O17: INIT's writes, the frame of every edge without reset, and clause (e) of the invariant. -/
theorem carrierParametersAreFixedAtInit : Obligations.CarrierParametersAreFixedAtInit := by
  refine ⟨fun s t h c => ?_, fun s t h hi hr => ?_, fun s hinv hi => hinv.carrier_eq hi⟩
  · obtain ⟨-, -, rfl⟩ := initialise_next (cfg := Config.built) h
    rw [initialised_ch]
    exact Channel.initialised_built_carrier
  · have hk := step_keepsCarrier h hi hr
    exact ⟨hk.initDone.trans hi, fun c => ⟨hk.top c, hk.div c⟩⟩

/-- Settles O34, by induction on the number of edges. -/
theorem motorStatePersistsBetweenOperations : Obligations.MotorStatePersistsBetweenOperations := by
  intro k s hh hin
  obtain ⟨t, hrun, hk⟩ := run_keepsMotorState_of_no_request k s hh hin
  exact ⟨t, hrun, hk.motorRegs, fun c => ⟨hk.top c, hk.div c⟩, hk.initDone, hk.dirOe, hk.pwmEn, hk.echoByte⟩

end Sys2Proof.Machine
end

section
/-! PROOFS. The command byte decoder (`30_encoding.md` R62): every byte maps to exactly one directive. -/

namespace Sys2Proof

/-- A byte that is none of the three command bytes is Unknown, with the byte itself as its parameter (R62). -/
theorem decodeDirective_of_not_command {b : Byte} (hf : b ≠ 0x46) (hb : b ≠ 0x42) (hs : b ≠ 0x53) :
    decodeDirective Config.built b = .unknown b := by
  rw [decodeDirective_built, if_neg hf, if_neg hb, if_neg hs]

/-- Settles O4: the three command bytes by evaluation, every other byte by falling through the decoder's comparisons. -/
theorem commandByteDecoderIsTotal : Obligations.CommandByteDecoderIsTotal := by
  refine ⟨?forward, ?backward, ?stop, ?other⟩
  case forward => decide
  case backward => decide
  case stop => decide
  case other => exact fun _ => decodeDirective_of_not_command

end Sys2Proof
end

section
/-! PROOFS. The mapper (`40_duty_mapper.md` R80, R83, R86): the duty level as a floor, when it is 0 and when it is full,
for every positive divisor; the obligations are the case of the built machine. -/

namespace Sys2Proof.Machine

/-! ## The duty level -/

/-- The duty level is the floor of the exact product over the divisor (R83). -/
theorem dutyLevel_floor (cfg : Config) (hd : 0 < cfg.pctDen) (top m : Nat) :
    dutyLevel cfg top m * cfg.pctDen ≤ top * m ∧ top * m < (dutyLevel cfg top m + 1) * cfg.pctDen :=
  ⟨Nat.div_mul_le_self _ _, (Nat.div_lt_iff_lt_mul hd).mp (Nat.lt_succ_self _)⟩

theorem dutyLevel_eq_zero_iff (cfg : Config) (hd : 0 < cfg.pctDen) (top m : Nat) :
    dutyLevel cfg top m = 0 ↔ top * m < cfg.pctDen :=
  Nat.div_eq_zero_iff_lt hd

/-- With a carrier top of at least the divisor, one percent already gives a positive duty level. -/
theorem dutyLevel_eq_zero_iff_of_den_le_top (cfg : Config) (hd : 0 < cfg.pctDen) {top m : Nat}
    (ht : cfg.pctDen ≤ top) : dutyLevel cfg top m = 0 ↔ m = 0 := by
  rw [dutyLevel_eq_zero_iff cfg hd]
  constructor
  · intro hlt
    by_contra hm
    have : top ≤ top * m := Nat.le_mul_of_pos_right top (Nat.pos_of_ne_zero hm)
    omega
  · rintro rfl
    exact hd

/-- Over a positive carrier top the duty level is full only at the full magnitude. -/
theorem dutyLevel_eq_top_iff (cfg : Config) (hd : 0 < cfg.pctDen) {top m : Nat} (ht : 0 < top) (hm : m ≤ cfg.pctDen) :
    dutyLevel cfg top m = top ↔ m = cfg.pctDen := by
  constructor
  · intro hfull
    have hprod : top * cfg.pctDen ≤ top * m := by simpa [hfull] using (dutyLevel_floor cfg hd top m).1
    exact Nat.le_antisymm hm (Nat.le_of_mul_le_mul_left hprod ht)
  · rintro rfl
    exact Nat.mul_div_cancel top hd

/-! ## The obligations -/

/-- Settles O9: the clamp bounds the percent by the divisor, so the duty level's range and its two ends follow. -/
theorem mapperResultsStayInRange : Obligations.MapperResultsStayInRange := by
  intro p T
  obtain ⟨hpct, hmag⟩ := legal_percent Config.built built_legal p
  have hd : 0 < Config.built.pctDen := by decide
  refine ⟨hpct, dutyLevel_le _ T _ hmag, dutyLevel_eq_zero_iff _ hd T _, fun ht => ?_,
    fun ht => dutyLevel_eq_top_iff _ hd ht hmag⟩
  exact (dutyLevel_eq_zero_iff_of_den_le_top _ hd ht).trans Int.natAbs_eq_zero

/-- Settles O7: the clamp as a maximum and a minimum, below, above and within its bounds. -/
theorem clampSaturatesAtBothBounds : Obligations.ClampSaturatesAtBothBounds := by
  intro p
  rw [clamp_built]
  refine ⟨fun hbelow => ?_, fun habove => ?_, fun hlo hhi => ?_⟩
  · rw [min_eq_right (by omega), max_eq_left hbelow.le]
  · rw [min_eq_left habove.le, max_eq_right (by decide)]
  · rw [min_eq_right hhi, max_eq_right hlo]

/-- Settles O8: the floor for every product, the corner values by evaluation. -/
theorem dutyLevelIsFloorOfExactProduct : Obligations.DutyLevelIsFloorOfExactProduct :=
  ⟨fun T m _ => dutyLevel_floor Config.built (by decide) T m, by decide⟩

end Sys2Proof.Machine
end

section
/-! PROOFS. SET_SPEED (`41_motor_driver.md` R98 to R101): what it writes and leaves, that each channel follows its own
operand and its own TOP, and that it depends on no earlier motor register. -/

namespace Sys2Proof.Machine

/-! ## The gate and the word -/

/-- In an initialised state SET_SPEED completes for every pair of integers (R99). -/
theorem exec_setSpeed_of_initDone (l r : Int) {s : State} (h : s.initDone = true) :
    exec (.setSpeed l r) s = .next (setSpeeds Config.built l r s) := by
  simp [exec_setSpeed_eq, h]

theorem exec_setSpeed_of_not_initDone (l r : Int) {s : State} (h : s.initDone = false) :
    exec (.setSpeed l r) s = .refused .beforeInit := by
  simp [exec_setSpeed_eq, h]

/-- A packed word with the op field of R67 decodes to SET_SPEED of its operand fields, read in two's complement (R69). -/
theorem decodeWord_setSpeed (b : Byte) (l r : Operand) :
    decodeWord (0b10#2 ++ b ++ l ++ r) = .setSpeed l.toInt r.toInt := by
  have hword : 0b10#2 ++ b ++ l ++ r = packRequest { op := opSetSpeed, byte := b, left := l, right := r } := rfl
  rw [decodeWord, hword, unpackRequest_packRequest]
  rfl

/-! ## One channel -/

/-- The mapper's clamp on the built machine is the one the statements speak of (R80). -/
theorem clamp_built_eq_clampedPercent (p : Int) :
    clamp p Config.built.pctMin Config.built.pctMax = clampedPercent p := clamp_built p

/-- The mapper on the built machine leaves in a channel what R98 says. -/
theorem drive_drivenBy (p : Int) (ch : Channel) :
    DrivenBy p ch (ch.drive (mapPercent Config.built p ch.top.toNat)) := by
  obtain ⟨hspeed, hdir, hduty⟩ := drive_mapPercent Config.built built_legal p ch
  rw [clamp_built_eq_clampedPercent] at hspeed hdir hduty
  exact ⟨hspeed, by rw [hdir, polarity_iff], hduty⟩

theorem drive_keepsRest (ch : Channel) (m : Mapped) : KeepsRest ch (ch.drive m) :=
  ⟨ch.drive_top m, ch.drive_div m, ch.drive_cnt m, ch.drive_act m⟩

/-- A channel holds nothing of an earlier drive (R100). -/
@[simp] theorem Channel.drive_drive (ch : Channel) (m m' : Mapped) : (ch.drive m).drive m' = ch.drive m' := rfl

/-- The registers a channel is driven to depend on the percent and its TOP alone (R100, R101). -/
theorem drive_mapPercent_of_top_eq (cfg : Config) (p : Int) {ch ch' : Channel} (h : ch.top = ch'.top) :
    (ch.drive (mapPercent cfg p ch.top.toNat)).speed = (ch'.drive (mapPercent cfg p ch'.top.toNat)).speed ∧
    (ch.drive (mapPercent cfg p ch.top.toNat)).dir = (ch'.drive (mapPercent cfg p ch'.top.toNat)).dir ∧
    (ch.drive (mapPercent cfg p ch.top.toNat)).duty = (ch'.drive (mapPercent cfg p ch'.top.toNat)).duty := by
  simp [h]

/-- The mapper takes a percent and its clamped value to the same result (R84). -/
theorem mapPercent_clampedPercent (p : Int) (top : Nat) :
    mapPercent Config.built (clampedPercent p) top = mapPercent Config.built p top := by
  have hclamp := clamp_clamp p Config.built.pctMin Config.built.pctMax (by decide)
  rw [clamp_built_eq_clampedPercent p] at hclamp
  simp only [mapPercent, hclamp, clamp_built_eq_clampedPercent p]

/-! ## Both channels -/

theorem setSpeeds_keepsRest (cfg : Config) (l r : Int) (s : State) (c : ChannelId) :
    KeepsRest (s.ch c) ((setSpeeds cfg l r s).ch c) := by
  cases c with
  | L => exact drive_keepsRest s.left _
  | R => exact drive_keepsRest s.right _

theorem setSpeeds_keepsControl (cfg : Config) (l r : Int) (s : State) : KeepsControl s (setSpeeds cfg l r s) :=
  ⟨rfl, rfl, rfl, rfl, rfl, rfl⟩

theorem setSpeeds_clampedPercent (l r : Int) (s : State) :
    setSpeeds Config.built (clampedPercent l) (clampedPercent r) s = setSpeeds Config.built l r s := by
  simp only [setSpeeds, mapPercent_clampedPercent]

/-- The motor registers that SET_SPEED leaves depend on the operands and the two TOPs alone (R100). -/
theorem setSpeeds_motorRegs_of_top_eq (cfg : Config) (l r : Int) {s s' : State} (hl : s.left.top = s'.left.top)
    (hr : s.right.top = s'.right.top) : (setSpeeds cfg l r s).motorRegs = (setSpeeds cfg l r s').motorRegs := by
  obtain ⟨hspeedL, hdirL, hdutyL⟩ := drive_mapPercent_of_top_eq cfg l hl
  obtain ⟨hspeedR, hdirR, hdutyR⟩ := drive_mapPercent_of_top_eq cfg r hr
  simp only [State.motorRegs, setSpeeds_left, setSpeeds_right, hspeedL, hdirL, hdutyL, hspeedR, hdirR, hdutyR]

/-- Where both channels already hold what the operands drive them to, only the Motor event is added. -/
theorem setSpeeds_of_driven {cfg : Config} {l r : Int} {s : State}
    (hl : s.left.drive (mapPercent cfg l s.left.top.toNat) = s.left)
    (hr : s.right.drive (mapPercent cfg r s.right.top.toNat) = s.right) : setSpeeds cfg l r s = s.emitMotor := by
  rw [setSpeeds, hl, hr]

/-- A second performance writes the same registers, so it adds only its own Motor event (R100). -/
theorem setSpeeds_setSpeeds (cfg : Config) (l r : Int) (s : State) :
    setSpeeds cfg l r (setSpeeds cfg l r s) = (setSpeeds cfg l r s).emitMotor :=
  setSpeeds_of_driven (s.left.drive_drive _ _) (s.right.drive_drive _ _)

/-! ## The obligations -/

/-- Settles O13: the gate's two answers, the mapper's law on each channel, the frame, and the word. -/
theorem setSpeedClampsAndDrivesBothChannels : Obligations.SetSpeedClampsAndDrivesBothChannels := by
  refine ⟨fun l r s hi => ?effect, fun l r s => exec_setSpeed_of_not_initDone l r, decodeWord_setSpeed 0x00#8, ?worked⟩
  case effect =>
    exact ⟨setSpeeds Config.built l r s, exec_setSpeed_of_initDone l r hi, drive_drivenBy l s.left,
      drive_drivenBy r s.right, setSpeeds_trace .., setSpeeds_echoPending .., setSpeeds_echoByte ..,
      setSpeeds_keepsRest _ l r s, setSpeeds_keepsControl _ l r s⟩
  case worked => exact decodeWord_setSpeed 0x00#8 0x00000014#32 0xFFFFFFEC#32

/-- Settles O14: both results are `setSpeeds`, which drives each channel from its own operand and TOP. -/
theorem setSpeedChannelsAreIndependent : Obligations.SetSpeedChannelsAreIndependent := by
  intro l l' r r' s s' t t' h h'
  obtain ⟨-, -, rfl⟩ := setSpeed_next (cfg := Config.built) h
  obtain ⟨-, -, rfl⟩ := setSpeed_next (cfg := Config.built) h'
  constructor
  · rintro rfl htop
    exact drive_mapPercent_of_top_eq _ l htop
  · rintro rfl htop
    exact drive_mapPercent_of_top_eq _ r htop

/-- Settles O15: the clamp is idempotent, and a drive overwrites all that an earlier drive wrote. -/
theorem setSpeedIsMemorylessAndIdempotent : Obligations.SetSpeedIsMemorylessAndIdempotent := by
  intro l r s hi
  refine ⟨?clamped, ?memoryless, setSpeeds Config.built l r s, _, exec_setSpeed_of_initDone l r hi,
    exec_setSpeed_of_initDone l r hi, setSpeeds_setSpeeds _ l r s⟩
  case clamped =>
    rw [exec_setSpeed_of_initDone _ _ hi, exec_setSpeed_of_initDone _ _ hi, setSpeeds_clampedPercent]
  case memoryless =>
    intro s' t t' htopL htopR h h'
    obtain ⟨-, -, rfl⟩ := setSpeed_next (cfg := Config.built) h
    obtain ⟨-, -, rfl⟩ := setSpeed_next (cfg := Config.built) h'
    exact setSpeeds_motorRegs_of_top_eq _ l r htopL.symm htopR.symm

end Sys2Proof.Machine
end

section
/-! PROOFS. The command front end (`42_command_loop.md` R111 to R116, R121): a CMD is a dispatch and then the echo, its
three known cases drive both channels at the table's percent, and a repetition adds only its own events. -/

namespace Sys2Proof.Machine

/-! ## The gate and the word -/

/-- In an initialised state CMD completes for every byte: the dispatch, then the echo (R112). -/
theorem command_of_initDone (b : Byte) {s : State} (h : s.initDone = true) :
    command Config.built b s = .next ((dispatch Config.built (decodeDirective Config.built b) s).sendEcho b) := by
  simp [command, whenInitialised_built, h]

theorem command_of_not_initDone (b : Byte) {s : State} (h : s.initDone = false) :
    command Config.built b s = .refused .beforeInit := by
  simp [command, whenInitialised_built, h]

theorem exec_commandInstr_of_initDone (b : Byte) {s : State} (h : s.initDone = true) :
    exec (commandInstr b) s = .next ((dispatch Config.built (decodeDirective Config.built b) s).sendEcho b) :=
  (exec_commandInstr b s).trans (command_of_initDone b h)

/-- A packed word with CMD's op field decodes by its byte field, whatever its operand fields hold (R68, R71). -/
theorem decodeWord_command (b : Byte) (l r : Operand) : decodeWord (0b01#2 ++ b ++ l ++ r) = commandInstr b := by
  have hword : 0b01#2 ++ b ++ l ++ r = packRequest { op := opCmd, byte := b, left := l, right := r } := rfl
  rw [decodeWord, hword, unpackRequest_packRequest]
  rfl

/-! ## The dispatch and the echo -/

theorem dispatch_of_some {cfg : Config} {d : Directive} {p : Int × Int} (h : directiveSpeeds cfg d = some p)
    (s : State) : dispatch cfg d s = setSpeeds cfg p.1 p.2 s := by
  simp only [dispatch, h]

theorem dispatch_of_none {cfg : Config} {d : Directive} (h : directiveSpeeds cfg d = none) (s : State) :
    dispatch cfg d s = s := by
  simp only [dispatch, h]

/-- The echo of a CMD is the next event of the trace once it is taken (R43, R112). -/
theorem sendEcho_takeEcho_trace (s : State) (b : Byte) : (s.sendEcho b).takeEcho.trace = s.trace ++ [.echo b] := by
  simp

/-- With a pair in the table, CMD's dispatch is that pair's SET_SPEED (R111). -/
theorem exec_setSpeed_then_sendEcho {d : Directive} {l r : Int} (h : directiveSpeeds Config.built d = some (l, r))
    (b : Byte) {s : State} (hi : s.initDone = true) :
    ∃ u, exec (.setSpeed l r) s = .next u ∧
      (dispatch Config.built d s).sendEcho b = { u with echoByte := b, echoPending := true } :=
  ⟨setSpeeds Config.built l r s, exec_setSpeed_of_initDone l r hi, by rw [dispatch_of_some h]; rfl⟩

/-- On a state whose channels are those that a dispatch of `d` has left, dispatching `d` again adds the same events and
changes nothing else (R121). -/
theorem dispatch_again (cfg : Config) (d : Directive) {s t : State} (hl : t.left = (dispatch cfg d s).left)
    (hr : t.right = (dispatch cfg d s).right) :
    ∃ events, (dispatch cfg d s).trace = s.trace ++ events ∧
      dispatch cfg d t = { t with trace := t.trace ++ events } := by
  cases h : directiveSpeeds cfg d with
  | none => exact ⟨[], by simp [dispatch_of_none h], by simp [dispatch_of_none h]⟩
  | some p =>
    rw [dispatch_of_some h] at hl hr
    have hdriven : setSpeeds cfg p.1 p.2 t = t.emitMotor :=
      setSpeeds_of_driven (by rw [hl]; exact s.left.drive_drive _ _) (by rw [hr]; exact s.right.drive_drive _ _)
    refine ⟨[.motor t.left.dir t.right.dir t.left.duty t.right.duty], ?_, ?_⟩
    · rw [dispatch_of_some h, setSpeeds_trace, hl, hr]
    · rw [dispatch_of_some h, hdriven]
      rfl

/-! ## One percent on both channels -/

theorem setSpeeds_drivenBy (v : Int) (s : State) (c : ChannelId) :
    DrivenBy v (s.ch c) ((setSpeeds Config.built v v s).ch c) := by
  cases c with
  | L => exact drive_drivenBy v s.left
  | R => exact drive_drivenBy v s.right

/-- The direction bit of a driven channel is the polarity of its clamped percent (R81). -/
theorem DrivenBy.dir_eq {p : Int} {old new : Channel} (h : DrivenBy p old new) :
    new.dir = polarity (clampedPercent p) :=
  Bool.eq_iff_iff.mpr (h.dir.trans (polarity_iff _).symm)

/-- What a CMD `b` whose directive has the pair `v, v` leaves: both channels driven by `v`, the enables as before, the
echo of `b` pending, and the Motor event before the echo in the trace. -/
structure DrivesThenEchoes (v : Int) (b : Byte) (s t : State) : Prop where
  driven : ∀ c, DrivenBy v (s.ch c) (t.ch c)
  dirOe : t.dirOe = s.dirOe
  pwmEn : t.pwmEn = s.pwmEn
  echoPending : t.echoPending = true
  echoByte : t.echoByte = b
  trace : t.takeEcho.trace = s.trace ++
    [.motor (polarity (clampedPercent v)) (polarity (clampedPercent v)) t.left.duty t.right.duty, .echo b]

theorem setSpeeds_sendEcho_drivesThenEchoes (v : Int) (b : Byte) (s : State) :
    DrivesThenEchoes v b s ((setSpeeds Config.built v v s).sendEcho b) where
  driven := setSpeeds_drivenBy v s
  dirOe := by simp
  pwmEn := by simp
  echoPending := by simp
  echoByte := by simp
  trace := by
    have hL : (setSpeeds Config.built v v s).left.dir = _ := (setSpeeds_drivenBy v s .L).dir_eq
    have hR : (setSpeeds Config.built v v s).right.dir = _ := (setSpeeds_drivenBy v s .R).dir_eq
    rw [sendEcho_takeEcho_trace, setSpeeds_trace, hL, hR, List.append_assoc]
    rfl

/-- A command byte with one percent for both channels in the table (R113 to R115). -/
theorem command_drivesThenEchoes {b : Byte} {v : Int}
    (h : directiveSpeeds Config.built (decodeDirective Config.built b) = some (v, v)) {s : State}
    (hi : s.initDone = true) : ∃ t, command Config.built b s = .next t ∧ DrivesThenEchoes v b s t :=
  ⟨_, command_of_initDone b hi, by rw [dispatch_of_some h]; exact setSpeeds_sendEcho_drivesThenEchoes v b s⟩

/-- At 20 percent of the default carrier top the duty level is 1249 (R113, R114). -/
theorem DrivenBy.duty_eq_1249 {v : Int} {old new : Channel} (h : DrivenBy v old new)
    (hv : (clampedPercent v).natAbs = 20) (htop : old.top = 6249) : new.duty = 1249 :=
  BitVec.eq_of_toNat_eq (by rw [h.duty, hv, htop]; rfl)

/-! ## The obligations -/

/-- Settles O26: the decoded directive picks the table's pair, or none, and the echo follows the dispatch. -/
theorem commandDispatchesThenEchoes : Obligations.CommandDispatchesThenEchoes := by
  refine ⟨fun b s hi => ⟨_, exec_commandInstr_of_initDone b hi, ?forward, ?backward, ?stop, ?unknown, ?echo⟩,
    ?refused, fun b => decodeWord_command b 0 0⟩
  case forward => exact fun hd => exec_setSpeed_then_sendEcho (by rw [hd]; rfl) b hi
  case backward => exact fun hd => exec_setSpeed_then_sendEcho (by rw [hd]; rfl) b hi
  case stop => exact fun hd => exec_setSpeed_then_sendEcho (by rw [hd]; rfl) b hi
  case unknown =>
    intro x hd
    rw [hd, dispatch_of_none rfl]
    rfl
  case echo => exact sendEcho_takeEcho_trace _ b
  case refused => exact fun b s hi => (exec_commandInstr b s).trans (command_of_not_initDone b hi)

/-- Settles O28: the second dispatch finds its channels already driven, so it adds only its events, and the same echo
follows. -/
theorem repeatedCommandLeavesTheSameState : Obligations.RepeatedCommandLeavesTheSameState := by
  intro b s hi
  obtain ⟨events, hfirst, hsecond⟩ := dispatch_again Config.built (decodeDirective Config.built b) (s := s)
    (t := ((dispatch Config.built (decodeDirective Config.built b) s).sendEcho b).takeEcho) (by simp) (by simp)
  have hi' := (dispatch_keepsCarrier Config.built (decodeDirective Config.built b) s).initDone.trans hi
  refine ⟨_, _, exec_commandInstr_of_initDone b hi, exec_commandInstr_of_initDone b (by simpa using hi'), ?state, ?trace⟩
  case state =>
    rw [hsecond]
    rfl
  case trace =>
    rw [sendEcho_takeEcho_trace, hsecond, sendEcho_takeEcho_trace, hfirst]
    simp

/-- Settles O22: 20 on both channels, forward polarity. -/
theorem forwardCommandDrivesBothForward : Obligations.ForwardCommandDrivesBothForward := by
  refine ⟨fun s hi => ?_, decodeWord_command 0x46 0 0⟩
  obtain ⟨t, hexec, ht⟩ := command_drivesThenEchoes (b := 0x46) (v := 20) rfl hi
  exact ⟨t, hexec, fun c => ⟨(ht.driven c).speed, (ht.driven c).dir_eq, (ht.driven c).duty⟩,
    fun htop c => (ht.driven c).duty_eq_1249 rfl (htop c), ht.echoPending, ht.echoByte, ht.trace⟩

/-- Settles O23: -20 on both channels, backward polarity. -/
theorem backwardCommandDrivesBothBackward : Obligations.BackwardCommandDrivesBothBackward := by
  refine ⟨fun s hi => ?_, decodeWord_command 0x42 0 0⟩
  obtain ⟨t, hexec, ht⟩ := command_drivesThenEchoes (b := 0x42) (v := -20) rfl hi
  exact ⟨t, hexec, fun c => ⟨(ht.driven c).speed, (ht.driven c).dir_eq, (ht.driven c).duty⟩,
    fun htop c => (ht.driven c).duty_eq_1249 rfl (htop c), ht.echoPending, ht.echoByte, ht.trace⟩

/-- Settles O24: 0 on both channels, whose polarity is forward since zero is non-negative. -/
theorem stopCommandSelectsForwardPolarity : Obligations.StopCommandSelectsForwardPolarity := by
  refine ⟨fun s hi => ?_, decodeWord_command 0x53 0 0⟩
  obtain ⟨t, hexec, ht⟩ := command_drivesThenEchoes (b := 0x53) (v := 0) rfl hi
  have hduty (c : ChannelId) : (t.ch c).duty = 0 :=
    BitVec.eq_of_toNat_eq ((ht.driven c).duty.trans (by simp [clampedPercent]))
  have htrace := ht.trace
  rw [show t.left.duty = 0 from hduty .L, show t.right.duty = 0 from hduty .R] at htrace
  exact ⟨t, hexec, fun c => ⟨(ht.driven c).speed, (ht.driven c).dir_eq, hduty c⟩, ht.dirOe, ht.pwmEn,
    ht.echoPending, ht.echoByte, htrace⟩

/-- Settles O25: the decoder answers Unknown, whose dispatch is the identity. -/
theorem unknownByteOnlyEchoes : Obligations.UnknownByteOnlyEchoes := by
  refine ⟨fun b s hf hb hs hi => ⟨s.sendEcho b, ?_, rfl, sendEcho_takeEcho_trace s b⟩, decodeWord_command 0x51 0 0⟩
  have hcommand := command_of_initDone b hi
  rwa [decodeDirective_of_not_command hf hb hs, dispatch_of_none rfl] at hcommand

end Sys2Proof.Machine
end

section
/-! PROOFS. Completion (`60_exceptions.md` R150): no step faults, and an operation that is meaningful in its state has a
next state. -/

namespace Sys2Proof.Machine

/-! ## Which operations complete -/

theorem exec_init_of_not_initDone {s : State} (h : s.initDone = false) :
    exec .init s = .next (initialised Config.built s) := by
  simp [exec_init_eq, h]

/-- In an initialised state every operation but INIT completes: NOP always does, the others pass their gate (R157). -/
theorem exec_completes_of_initDone {i : Instr} {s : State} (hne : i ≠ .init) (hi : s.initDone = true) :
    ∃ t, exec i s = .next t := by
  cases i with
  | nop => exact ⟨s, rfl⟩
  | cmdF => exact ⟨_, command_of_initDone Config.built.byteFwd hi⟩
  | cmdB => exact ⟨_, command_of_initDone Config.built.byteBwd hi⟩
  | cmdS => exact ⟨_, command_of_initDone Config.built.byteStop hi⟩
  | cmdUnknown b => exact ⟨_, command_of_initDone b hi⟩
  | setSpeed l r => exact ⟨_, exec_setSpeed_of_initDone l r hi⟩
  | init => exact absurd rfl hne

/-! ## The obligation -/

/-- Settles O21: there is no fault to answer, since `Fault` has no constructor; each meaningful operation passes its
gate. -/
theorem meaningfulOperationsNeverFault : Obligations.MeaningfulOperationsNeverFault := by
  refine ⟨fun _ f => (nomatch f), ?completes⟩
  case completes =>
    rintro i s (rfl | ⟨rfl, hi⟩ | ⟨hne, hi⟩)
    · exact ⟨s, rfl⟩
    · exact ⟨_, exec_init_of_not_initDone hi⟩
    · exact exec_completes_of_initDone hne hi

end Sys2Proof.Machine
end

section
/-! PROOFS. The request word (`30_encoding.md` R66 to R71): which operation the op field selects, and that decoding and
encoding are inverse up to the fields an operation does not use. -/

namespace Sys2Proof

/-! ## Packing -/

theorem packRequest_unpackRequest (w : ReqWord) : packRequest (unpackRequest w) = w := by
  have hhigh : w.extractLsb' 72 2 ++ w.extractLsb' 64 8 = w.extractLsb' 64 10 :=
    BitVec.extractLsb'_append_extractLsb'_eq_extractLsb' rfl
  have hmiddle : w.extractLsb' 64 10 ++ w.extractLsb' 32 32 = w.extractLsb' 32 42 :=
    BitVec.extractLsb'_append_extractLsb'_eq_extractLsb' rfl
  have hall : w.extractLsb' 32 42 ++ w.extractLsb' 0 32 = w.extractLsb' 0 74 :=
    BitVec.extractLsb'_append_extractLsb'_eq_extractLsb' rfl
  calc packRequest (unpackRequest w)
      = w.extractLsb' 72 2 ++ w.extractLsb' 64 8 ++ w.extractLsb' 32 32 ++ w.extractLsb' 0 32 := rfl
    _ = w := by rw [hhigh, hmiddle, hall]; exact BitVec.extractLsb'_eq_self

/-- Masking a packed request masks its fields. -/
theorem packRequest_and_packRequest (r m : Request) :
    packRequest r &&& packRequest m =
      packRequest { op := r.op &&& m.op, byte := r.byte &&& m.byte, left := r.left &&& m.left,
                    right := r.right &&& m.right } :=
  BitVec.and_append.trans (congrArg (· ++ _) (BitVec.and_append.trans (congrArg (· ++ _) BitVec.and_append)))

/-- The table's numbering of a request word is the word's own (R66). -/
theorem decodeTableWord_toNat (w : ReqWord) : decodeTableWord 80 w.toNat = some (decodeWord w) := by
  have hlt : w.toNat < 2 ^ 74 := w.isLt
  have hmod : w.toNat % 2 ^ 80 = w.toNat := Nat.mod_eq_of_lt (by omega)
  simp only [decodeTableWord, decodeNat, hmod, if_pos hlt, BitVec.ofNat_toNat, BitVec.setWidth_eq]

/-! ## The op field -/

/-- The four operation codes are all there are (R67). -/
theorem op_cases (op : BitVec 2) : op = opNop ∨ op = opCmd ∨ op = opSetSpeed ∨ op = opInit := by
  revert op; decide

theorem decodeRequest_opNop (b : Byte) (l r : Operand) :
    decodeRequest { op := opNop, byte := b, left := l, right := r } = .nop := rfl

theorem decodeRequest_opCmd (b : Byte) (l r : Operand) :
    decodeRequest { op := opCmd, byte := b, left := l, right := r } = commandInstr b := rfl

theorem decodeRequest_opSetSpeed (b : Byte) (l r : Operand) :
    decodeRequest { op := opSetSpeed, byte := b, left := l, right := r } = .setSpeed l.toInt r.toInt := rfl

theorem decodeRequest_opInit (b : Byte) (l r : Operand) :
    decodeRequest { op := opInit, byte := b, left := l, right := r } = .init := rfl

/-! ## CMD's four cases -/

/-- A byte that is none of the command bytes is CMD_UNKNOWN (R116). -/
theorem commandInstr_of_wellFormed {b : Byte} (h : (Instr.cmdUnknown b).WellFormed) :
    commandInstr b = .cmdUnknown b := by
  obtain ⟨hf, hb, hs⟩ := of_decide_eq_true h
  simp only [commandInstr, decodeDirective_of_not_command hf hb hs]

/-- CMD's case over a byte can be presented, and its canonical request has the byte and zero operands (R68). -/
theorem commandInstr_canonical (b : Byte) :
    (commandInstr b).WellFormed ∧ encodeRequest (commandInstr b) = { op := opCmd, byte := b, left := 0, right := 0 } := by
  rw [commandInstr_eq]
  split_ifs with hf hb hs
  · exact ⟨rfl, by rw [hf]; rfl⟩
  · exact ⟨rfl, by rw [hb]; rfl⟩
  · exact ⟨rfl, by rw [hs]; rfl⟩
  · exact ⟨decide_eq_true ⟨hf, hb, hs⟩, rfl⟩

/-- A two's complement reading fits the operand field (R69). -/
theorem fitsOperand_toInt (v : Operand) : FitsOperand v.toInt :=
  ⟨BitVec.le_toInt v, BitVec.toInt_lt⟩

/-! ## Decoding and encoding -/

/-- Decoding the canonical request of a well-formed operation gives it back (R67 to R71). -/
theorem decodeRequest_encodeRequest {i : Instr} (h : i.WellFormed) : decodeRequest (encodeRequest i) = i := by
  cases i with
  | nop => rfl
  | cmdF => rfl
  | cmdB => rfl
  | cmdS => rfl
  | cmdUnknown b => exact (decodeRequest_opCmd b 0 0).trans (commandInstr_of_wellFormed h)
  | setSpeed l r =>
    obtain ⟨hl, hr⟩ := of_decide_eq_true h
    rw [encodeRequest, decodeRequest_opSetSpeed, operand_toInt_ofInt l hl, operand_toInt_ofInt r hr]
  | init => rfl

theorem decodeWord_encode {i : Instr} (h : i.WellFormed) : decodeWord (encode i) = i := by
  rw [decodeWord, encode, unpackRequest_packRequest, decodeRequest_encodeRequest h]

/-- The fields that an operation uses, as a mask: R68's table by the op field. -/
def usedFields (op : BitVec 2) : ReqWord :=
  if op = 0b01#2 then 0x3FF0000000000000000#74
  else if op = 0b10#2 then 0x300FFFFFFFFFFFFFFFF#74
  else 0x3000000000000000000#74

theorem usedFields_opCmd : usedFields opCmd = packRequest { op := 3, byte := 0xFF, left := 0, right := 0 } := by decide

theorem usedFields_opSetSpeed :
    usedFields opSetSpeed = packRequest { op := 3, byte := 0, left := 0xFFFFFFFF, right := 0xFFFFFFFF } := by decide

theorem usedFields_opNop : usedFields opNop = packRequest { op := 3, byte := 0, left := 0, right := 0 } := by decide

theorem usedFields_opInit : usedFields opInit = packRequest { op := 3, byte := 0, left := 0, right := 0 } := by decide

/-- Every request decodes to a presentable operation, whose encoding keeps exactly the fields it uses (R68, R70). -/
theorem encode_decodeRequest (r : Request) :
    (decodeRequest r).WellFormed ∧ encode (decodeRequest r) = packRequest r &&& usedFields r.op := by
  obtain ⟨op, b, left, right⟩ := r
  have hbyte : b &&& 0xFF = b := BitVec.and_allOnes
  have hoperand (v : Operand) : v &&& 0xFFFFFFFF = v := BitVec.and_allOnes
  obtain rfl | rfl | rfl | rfl := op_cases op
  · rw [decodeRequest_opNop, usedFields_opNop, packRequest_and_packRequest]
    exact ⟨rfl, by simp [encode, encodeRequest, opNop]⟩
  · obtain ⟨hwf, henc⟩ := commandInstr_canonical b
    rw [decodeRequest_opCmd, usedFields_opCmd, packRequest_and_packRequest, encode, henc, hbyte]
    exact ⟨hwf, by simp [opCmd]⟩
  · rw [decodeRequest_opSetSpeed, usedFields_opSetSpeed, packRequest_and_packRequest, hoperand, hoperand]
    refine ⟨decide_eq_true ⟨fitsOperand_toInt left, fitsOperand_toInt right⟩, ?_⟩
    simp [encode, encodeRequest, opSetSpeed]
  · rw [decodeRequest_opInit, usedFields_opInit, packRequest_and_packRequest]
    exact ⟨rfl, by simp [encode, encodeRequest, opInit]⟩

/-! ## The obligations -/

/-- Settles O1: the port's fields survive packing, and each operation's canonical request decodes to it. -/
theorem decodeOfEncodeIsIdentity : Obligations.DecodeOfEncodeIsIdentity := by
  intro i hi
  refine ⟨decodeWord_encode hi, ?_⟩
  rw [decodeTableWord_toNat, decodeWord_encode hi]

/-- Settles O2: the statement's mask is `usedFields` of the op field, and a word is the pack of its own fields. -/
theorem encodeOfDecodeIsCanonicalWord : Obligations.EncodeOfDecodeIsCanonicalWord := by
  intro w
  obtain ⟨hwf, henc⟩ := encode_decodeRequest (unpackRequest w)
  rw [packRequest_unpackRequest] at henc
  exact ⟨hwf, henc⟩

/-- Settles O3: the op field alone selects the case. -/
theorem onlyUsedRequestFieldsMatter : Obligations.OnlyUsedRequestFieldsMatter :=
  fun b l r => ⟨decodeRequest_opNop b l r, decodeRequest_opCmd b l r, decodeRequest_opSetSpeed b l r,
    decodeRequest_opInit b l r⟩

/-- Settles O5: each word's op field selects its operation, and a CMD word's byte its case. -/
theorem writtenOutWordsDecode : Obligations.WrittenOutWordsDecode := by
  refine ⟨by decide, by decide, Machine.decodeWord_command 0x46 0 0, Machine.decodeWord_command 0x42 0 0,
    Machine.decodeWord_command 0x53 0 0, Machine.decodeWord_command 0x51 0 0, ?_, ?_⟩
  · exact Machine.decodeWord_setSpeed 0x00#8 0x00000014#32 0xFFFFFFEC#32
  · exact Machine.decodeWord_setSpeed 0xAB#8 0x00000014#32 0x00000014#32

end Sys2Proof
end

section
/-! PROOFS. The text shorthands (`30_encoding.md` R72, R73). -/

namespace Sys2Proof.Machine

/-- Settles O6, by reading the five lines. -/
theorem textShorthandsReadAsCommands : Obligations.TextShorthandsReadAsCommands := by
  refine ⟨?forward, ?backward, ?stop, ?command, ?setSpeed⟩
  case forward => decide
  case backward => decide
  case stop => decide
  case command => decide
  case setSpeed => decide

end Sys2Proof.Machine
end

section
/-! PROOFS. The mapper over every legal configuration (`00_scope.md` R8) and its properties on the built one
(`40_duty_mapper.md` R81, R87). -/

namespace Sys2Proof.Machine

/-! ## Every legal configuration -/

/-- The duty level that `MAP` leaves in a channel is at most its TOP (R29 (c)). -/
theorem drive_mapPercent_duty_le (cfg : Config) (h : cfg.Legal) (p : Int) (ch : Channel) :
    (ch.drive (mapPercent cfg p ch.top.toNat)).duty.toNat ≤ ch.top.toNat := by
  obtain ⟨-, hmag⟩ := legal_percent cfg h p
  obtain ⟨-, -, hduty⟩ := drive_mapPercent cfg h p ch
  exact hduty.trans_le (dutyLevel_le cfg ch.top.toNat _ hmag)

/-! ## The built configuration -/

/-- The three results of `MAP`, in the statements' own terms (R84). -/
theorem mapPercent_built (p : Int) (top : Nat) :
    mapPercent Config.built p top =
      { percent := clampedPercent p, dir := polarity (clampedPercent p),
        duty := dutyLevel Config.built top (clampedPercent p).natAbs } := by
  rw [mapPercent, clamp_built_eq_clampedPercent]
  rfl

theorem clampedPercent_neg (p : Int) : clampedPercent (-p) = -clampedPercent p := by
  unfold clampedPercent; omega

theorem clampedPercent_of_ge {p : Int} (h : 100 ≤ p) : clampedPercent p = 100 := by
  unfold clampedPercent; omega

theorem clampedPercent_of_le {p : Int} (h : p ≤ -100) : clampedPercent p = -100 := by
  unfold clampedPercent; omega

theorem clampedPercent_nonneg_iff (p : Int) : 0 ≤ clampedPercent p ↔ 0 ≤ p := by
  unfold clampedPercent; omega

theorem dutyLevel_mono (cfg : Config) (top : Nat) {m n : Nat} (h : m ≤ n) :
    dutyLevel cfg top m ≤ dutyLevel cfg top n :=
  Nat.div_le_div_right (Nat.mul_le_mul_left top h)

/-- At the full magnitude the duty level is the carrier top. -/
theorem dutyLevel_full (top : Nat) : dutyLevel Config.built top 100 = top :=
  Nat.mul_div_cancel top (by decide)

/-- The default carrier top exceeds the divisor, so one percent more is a higher duty level (R87 (e)). -/
theorem dutyLevel_injective {m n : Nat} (h : dutyLevel Config.built 6249 m = dutyLevel Config.built 6249 n) :
    m = n := by
  obtain ⟨hm, hm'⟩ := dutyLevel_floor Config.built (by decide) 6249 m
  obtain ⟨hn, hn'⟩ := dutyLevel_floor Config.built (by decide) 6249 n
  rw [h] at hm hm'
  simp only [show Config.built.pctDen = 100 from rfl] at hm hm' hn hn'
  omega

/-! ## The obligations -/

/-- Settles O10: the mapper's law on a driven channel, rewritten to the stored speed. -/
theorem everyLegalConfigurationMapsInRange : Obligations.EveryLegalConfigurationMapsInRange := by
  intro cfg h p ch
  obtain ⟨hrange, -⟩ := legal_percent cfg h p
  obtain ⟨hspeed, hdir, hduty⟩ := drive_mapPercent cfg h p ch
  refine ⟨hspeed, ?range, drive_mapPercent_duty_le cfg h p ch, ?duty, ?dir⟩
  case range => rw [hspeed]; exact hrange
  case duty => rw [hspeed]; exact hduty
  case dir => rw [hspeed, hdir, polarity_iff]

/-- Settles O11: each property is one of the clamp or of the duty level. -/
theorem mapperIsSymmetricMonotoneSaturating : Obligations.MapperIsSymmetricMonotoneSaturating := by
  refine ⟨fun p T => ?symmetric, fun p q T hle => ?monotone, fun p T hp => ?full, fun p T hp => ?fullBackward,
    mapPercent_clampedPercent, fun m n _ _ => dutyLevel_injective⟩
  case symmetric => simp [mapPercent_built, clampedPercent_neg]
  case monotone =>
    simp only [mapPercent_built] at hle ⊢
    exact dutyLevel_mono _ T hle
  case full =>
    rw [mapPercent_built, clampedPercent_of_ge hp, show (100 : Int).natAbs = 100 from rfl, dutyLevel_full]
    rfl
  case fullBackward =>
    rw [mapPercent_built, clampedPercent_of_le hp, show (-100 : Int).natAbs = 100 from rfl, dutyLevel_full]
    rfl

/-- Settles O12: the direction bit is the polarity of the clamped percent, whose sign is the raw percent's. -/
theorem directionIsHighExactlyForNonNegative : Obligations.DirectionIsHighExactlyForNonNegative := by
  intro p T
  rw [mapPercent_built]
  exact ⟨polarity_iff _, (polarity_iff _).trans (clampedPercent_nonneg_iff p)⟩

end Sys2Proof.Machine
end

section
/-! PROOFS. What the operations keep of a channel and of the control elements, operation by operation
(`41_motor_driver.md` R95 to R98, `42_command_loop.md` R112 to R116), and when they complete (`60_exceptions.md` R157). -/

namespace Sys2Proof.Machine

/-! ## Frames -/

theorem KeepsRest.refl (ch : Channel) : KeepsRest ch ch := ⟨rfl, rfl, rfl, rfl⟩

theorem KeepsControl.refl (s : State) : KeepsControl s s := ⟨rfl, rfl, rfl, rfl, rfl, rfl⟩

theorem dispatch_keepsRest (cfg : Config) (d : Directive) (s : State) (c : ChannelId) :
    KeepsRest (s.ch c) ((dispatch cfg d s).ch c) := by
  obtain ⟨p, -, h⟩ | ⟨-, h⟩ := dispatch_cases cfg d s
  · rw [h]; exact setSpeeds_keepsRest cfg p.1 p.2 s c
  · rw [h]; exact .refl _

theorem dispatch_keepsControl (cfg : Config) (d : Directive) (s : State) : KeepsControl s (dispatch cfg d s) := by
  obtain ⟨p, -, h⟩ | ⟨-, h⟩ := dispatch_cases cfg d s
  · rw [h]; exact setSpeeds_keepsControl cfg p.1 p.2 s
  · rw [h]; exact .refl s

theorem sendEcho_ch (s : State) (b : Byte) (c : ChannelId) : (s.sendEcho b).ch c = s.ch c := by
  cases c <;> rfl

theorem KeepsControl.sendEcho {s t : State} (h : KeepsControl s t) (b : Byte) : KeepsControl s (t.sendEcho b) :=
  ⟨h.initDone, h.dirOe, h.pwmEn, h.host, h.held, h.resets⟩

/-- In an initialised state an operation writes of a channel only `SPEED`, `DIR` and `DUTY` (R95). -/
theorem exec_keepsRest {i : Instr} {s t : State} (h : exec i s = .next t) (hi : s.initDone = true) (c : ChannelId) :
    KeepsRest (s.ch c) (t.ch c) := by
  obtain ⟨-, rfl⟩ | ⟨-, h0, -⟩ | ⟨-, l, r, -, rfl⟩ | ⟨-, b, -, rfl⟩ := exec_next_cases h
  · exact .refl _
  · simp [hi] at h0
  · exact setSpeeds_keepsRest _ l r s c
  · rw [sendEcho_ch]; exact dispatch_keepsRest _ _ s c

/-- In an initialised state an operation writes none of the enables and none of the model's own fields. -/
theorem exec_keepsControl {i : Instr} {s t : State} (h : exec i s = .next t) (hi : s.initDone = true) :
    KeepsControl s t := by
  obtain ⟨-, rfl⟩ | ⟨-, h0, -⟩ | ⟨-, l, r, -, rfl⟩ | ⟨-, b, -, rfl⟩ := exec_next_cases h
  · exact .refl _
  · simp [hi] at h0
  · exact setSpeeds_keepsControl _ l r s
  · exact (dispatch_keepsControl _ _ s).sendEcho b

/-- No operation writes the model's own fields for the host. -/
theorem exec_keepsHost {i : Instr} {s t : State} (h : exec i s = .next t) : t.host = s.host ∧ t.held = s.held := by
  cases hi : s.initDone with
  | true => exact ⟨(exec_keepsControl h hi).host, (exec_keepsControl h hi).held⟩
  | false =>
    obtain ⟨-, rfl⟩ | ⟨-, -, rfl⟩ | ⟨h1, -⟩ | ⟨h1, -⟩ := exec_next_cases h
    · exact ⟨rfl, rfl⟩
    · simp
    · simp [hi] at h1
    · simp [hi] at h1

/-- The dispatch of a byte that is none of the command bytes is the identity (R112, R116). -/
theorem dispatch_of_cmdUnknown_wellFormed {b : Byte} (h : (Instr.cmdUnknown b).WellFormed) (s : State) :
    dispatch Config.built (decodeDirective Config.built b) s = s := by
  obtain ⟨hf, hb, hs⟩ := of_decide_eq_true h
  rw [decodeDirective_of_not_command hf hb hs, dispatch_of_none rfl]

/-- What a well-formed CMD_UNKNOWN answers: the echo is sent and nothing else happens (R116). -/
theorem exec_cmdUnknown_next {b : Byte} {s t : State} (hwf : (Instr.cmdUnknown b).WellFormed)
    (h : exec (.cmdUnknown b) s = .next t) : s.initDone = true ∧ t = s.sendEcho b := by
  obtain ⟨-, hi, rfl⟩ := command_next (cfg := Config.built) h
  exact ⟨hi, by rw [dispatch_of_cmdUnknown_wellFormed hwf]⟩

/-! ## The directive table -/

/-- A directive of the built machine is dispatched as one of three percents on both channels, or not at all (R111). -/
theorem directiveSpeeds_built_cases (d : Directive) :
    directiveSpeeds Config.built d = none ∨
      ∃ v, (v = 20 ∨ v = -20 ∨ v = 0) ∧ directiveSpeeds Config.built d = some (v, v) := by
  cases d with
  | forward => exact .inr ⟨20, by decide, rfl⟩
  | backward => exact .inr ⟨-20, by decide, rfl⟩
  | stop => exact .inr ⟨0, by decide, rfl⟩
  | unknown _ => exact .inl rfl

/-- The dispatch on the built machine is the identity or drives both channels by one of three percents (R111). -/
theorem dispatch_built_cases (d : Directive) (s : State) :
    dispatch Config.built d s = s ∨
      ∃ v, (v = 20 ∨ v = -20 ∨ v = 0) ∧ dispatch Config.built d s = setSpeeds Config.built v v s := by
  obtain hd | ⟨v, hv, hd⟩ := directiveSpeeds_built_cases d
  · exact .inl (dispatch_of_none hd s)
  · exact .inr ⟨v, hv, dispatch_of_some hd s⟩

/-! ## The gates -/

theorem exec_init_of_initDone {s : State} (h : s.initDone = true) : exec .init s = .refused .reinit := by
  simp [exec_init_eq, h]

/-- Before INIT every operation but NOP and INIT is refused (R102, R123, R157). -/
theorem exec_of_not_initDone {i : Instr} {s : State} (hnop : i ≠ .nop) (hinit : i ≠ .init) (h : s.initDone = false) :
    exec i s = .refused .beforeInit := by
  cases i with
  | nop => exact absurd rfl hnop
  | cmdF => exact command_of_not_initDone Config.built.byteFwd h
  | cmdB => exact command_of_not_initDone Config.built.byteBwd h
  | cmdS => exact command_of_not_initDone Config.built.byteStop h
  | cmdUnknown b => exact command_of_not_initDone b h
  | setSpeed l r => exact exec_setSpeed_of_not_initDone l r h
  | init => exact absurd rfl hinit

theorem initDone_of_exec_next {i : Instr} {s t : State} (hnop : i ≠ .nop) (hinit : i ≠ .init)
    (h : exec i s = .next t) : s.initDone = true := by
  by_contra hi
  rw [exec_of_not_initDone hnop hinit (by simpa using hi)] at h
  cases h

/-! ## The obligations -/

/-- Settles O16: the writes of INIT at the built configuration. -/
theorem initConfiguresBothChannels : Obligations.InitConfiguresBothChannels :=
  fun _ hi => exec_init_of_not_initDone hi

/-- Settles O18. -/
theorem secondInitIsRefused : Obligations.SecondInitIsRefused :=
  fun _ hi => exec_init_of_initDone hi

/-- Settles O19. -/
theorem motorOperationsBeforeInitAreRefused : Obligations.MotorOperationsBeforeInitAreRefused :=
  fun s hi => ⟨fun b => (exec_commandInstr b s).trans (command_of_not_initDone b hi),
    fun l r => exec_setSpeed_of_not_initDone l r hi⟩

/-- Settles O29: NOP's meaning is the identity. -/
theorem nopIsTheIdentity : Obligations.NopIsTheIdentity := fun _ => rfl

/-- Settles O20: NOP and INIT by their own answers, every other operation by the gate on `INIT_DONE`. -/
theorem operationsCompleteExactlyWhenNotListed : Obligations.OperationsCompleteExactlyWhenNotListed := by
  intro i s
  by_cases hnop : i = .nop
  · subst hnop
    exact ⟨⟨fun _ => .inl rfl, fun _ => ⟨s, rfl⟩⟩, .inl ⟨s, rfl⟩⟩
  by_cases hinit : i = .init
  · subst hinit
    cases hi : s.initDone with
    | false => simp [exec_init_of_not_initDone hi]
    | true => simp [exec_init_of_initDone hi]
  cases hi : s.initDone with
  | false => simp [exec_of_not_initDone hnop hinit hi, hnop, hinit]
  | true =>
    have hnext := exec_completes_of_initDone hinit hi
    exact ⟨⟨fun _ => .inr (.inr ⟨hnop, hinit, rfl⟩), fun _ => hnext⟩, .inl hnext⟩

/-- Settles O27: the dispatch is the identity or one of the three pairs, and the echo writes no motor register. -/
theorem commandLeavesOneOfFourSettings : Obligations.CommandLeavesOneOfFourSettings := by
  intro b s t h
  rw [exec_commandInstr] at h
  obtain ⟨-, -, rfl⟩ := command_next h
  simp only [sendEcho_ch]
  obtain hid | ⟨v, hv, hdrive⟩ := dispatch_built_cases (decodeDirective Config.built b) s
  · rw [hid]
    exact .inl rfl
  · rw [hdrive]
    obtain rfl | rfl | rfl := hv
    · exact .inr (.inl (setSpeeds_drivenBy 20 s))
    · exact .inr (.inr (.inl (setSpeeds_drivenBy (-20) s)))
    · exact .inr (.inr (.inr (setSpeeds_drivenBy 0 s)))

/-- Settles O32: INIT's writes field by field, the others by the frames of an initialised state. -/
theorem operationsLeaveTheRestUnchanged : Obligations.OperationsLeaveTheRestUnchanged := by
  refine ⟨fun s t h => ?init, fun l r s t h => ?setSpeed, fun i s t hi h => ?command, fun b s t hwf h => ?unknown⟩
  case init =>
    obtain ⟨-, -, rfl⟩ := initialise_next (cfg := Config.built) h
    simp
  case setSpeed =>
    obtain ⟨-, -, rfl⟩ := setSpeed_next (cfg := Config.built) h
    exact ⟨setSpeeds_keepsRest _ l r s, setSpeeds_keepsControl _ l r s, rfl, rfl⟩
  case command =>
    have hdone : s.initDone = true :=
      initDone_of_exec_next (by rintro rfl; simp at hi) (by rintro rfl; simp at hi) h
    exact ⟨exec_keepsRest h hdone, exec_keepsControl h hdone⟩
  case unknown =>
    obtain ⟨-, rfl⟩ := exec_cmdUnknown_next hwf h
    exact ⟨rfl, rfl, (KeepsControl.refl s).sendEcho b, rfl⟩

end Sys2Proof.Machine
end

section
/-! PROOFS. One edge and the ports (`20_memory.md` R42 to R45, R58; `70_reset_and_hazards.md` R170, R171, R180): what each
kind of edge does, and what it may write. -/

namespace Sys2Proof.Machine

/-! ## The kinds of edge -/

theorem step_of_reset {s : State} (h : s.edgeInput.rst = true) :
    step s = .next (s.advance s.edgeInput.req).resetEdge := by
  simp [step, h]

/-- The host keeps its request when it presents the one that waits, if one does (R42). -/
theorem keepsRequest_some {s : State} {r : Request} (h : s.held = none ∨ s.held = some r) :
    s.keepsRequest (some r) = true := by
  obtain h | h := h
  · simp [State.keepsRequest, h]
  · simp [State.keepsRequest, h]

theorem keepsRequest_of_changed {s : State} {r : Request} {req : Option Request} (hh : s.held = some r)
    (hreq : req ≠ some r) : s.keepsRequest req = false := by
  simp [State.keepsRequest, hh, hreq]

/-- An edge that presents a request with the port ready performs its operation after the tick (R42, R153). -/
theorem step_of_ready_request {s : State} {r : Request} (hrst : s.edgeInput.rst = false)
    (hreq : s.edgeInput.req = some r) (hp : s.echoPending = false) (hh : s.held = none ∨ s.held = some r) :
    step s = exec (decodeRequest r) (s.advance none).tick := by
  simp [step, hrst, hreq, keepsRequest_some hh, State.accepted, State.reqReady, hp]

/-- An edge that presents a request while an echo is pending leaves it waiting (R42, R180). -/
theorem step_of_stalled_request {s : State} {r : Request} (hrst : s.edgeInput.rst = false)
    (hreq : s.edgeInput.req = some r) (hp : s.echoPending = true) (hh : s.held = none ∨ s.held = some r) :
    step s = .next ((s.advance (some r)).quietEdge s.edgeInput.echoReady) := by
  simp [step, hrst, hreq, keepsRequest_some hh, State.accepted, State.reqReady, hp]

/-- With the inputs written out, an advance is the host's list without its head. -/
theorem advance_of_host_cons {s : State} {e : EdgeInput} {rest : List EdgeInput} (h : s.host = e :: rest)
    (waiting : Option Request) : s.advance waiting = { s with host := rest, held := waiting } := by
  simp [State.advance, h]

/-! ## The echo at a quiet edge -/

@[simp] theorem State.quietEdge_echoPending (s : State) (ready : Bool) :
    (s.quietEdge ready).echoPending = (s.echoPending && !ready) := by
  cases ready <;> simp [quietEdge_eq]

@[simp] theorem State.quietEdge_trace (s : State) (ready : Bool) :
    (s.quietEdge ready).trace = if ready && s.echoPending then s.trace ++ [.echo s.echoByte] else s.trace := by
  cases ready <;> simp [quietEdge_eq]

/-! ## A stalled request -/

/-- A run composes: after `m` edges, `k` more are the run of `k` from there. -/
theorem run_add_of_next {m : Nat} {s t : State} (h : Host.Core.run Sys2Proof.core m s = .next t) (k : Nat) :
    Host.Core.run Sys2Proof.core (m + k) s = Host.Core.run Sys2Proof.core k t := by
  induction m generalizing s with
  | zero =>
    rw [run_zero] at h
    cases h
    rw [Nat.zero_add]
  | succ m ih =>
    obtain ⟨u, hstep, hrun⟩ := run_succ_next h
    rw [Nat.succ_add, run_succ, hstep]
    exact ih hrun

/-- One step more at the end of a run. -/
theorem run_succ_of_next {m : Nat} {s t : State} (h : Host.Core.run Sys2Proof.core m s = .next t) :
    Host.Core.run Sys2Proof.core (m + 1) s = step t := by
  rw [run_add_of_next h 1, run_succ]
  cases step t <;> rfl

/-- Since `s` the echo has not been taken and nothing but `r` has come to wait (R180). -/
structure StalledOn (r : Request) (s t : State) : Prop extends KeepsMotorState s t where
  echoPending : t.echoPending = true
  trace : t.trace = s.trace
  held : t.held = none ∨ t.held = some r

/-- The edge at which the host holds a request and does not take the pending echo. -/
def untakenEdge (r : Request) : EdgeInput :=
  { rst := false, req := some r, echoReady := false }

/-- While the host leaves the echo untaken, the request it holds waits and nothing else happens (R180). -/
theorem run_stalledOn (n : Nat) {s : State} {r : Request} {rest : List EdgeInput} (hp : s.echoPending = true)
    (hh : s.held = none ∨ s.held = some r) (hhost : s.host = List.replicate n (untakenEdge r) ++ rest) :
    ∃ t, Host.Core.run Sys2Proof.core n s = .next t ∧ t.host = rest ∧ StalledOn r s t := by
  induction n generalizing s with
  | zero => exact ⟨s, run_zero s, by simpa using hhost, .refl s, hp, rfl, hh⟩
  | succ n ih =>
    rw [List.replicate_succ, List.cons_append] at hhost
    have hedge := edgeInput_cons hhost
    have hstep := step_of_stalled_request (r := r) (by rw [hedge]; rfl) (by rw [hedge]; rfl) hp hh
    rw [hedge] at hstep
    have hkeep : KeepsMotorState s ((s.advance (some r)).quietEdge false) :=
      (advance_keepsMotorState s _).trans (quietEdge_keepsMotorState _ _)
    obtain ⟨t, hrun, hrest, ht⟩ := ih (s := (s.advance (some r)).quietEdge false) (by simp [hp]) (by simp)
      (by simp [hhost])
    refine ⟨t, ?_, hrest, hkeep.trans ht.toKeepsMotorState, ht.echoPending, by simpa using ht.trace, ht.held⟩
    rw [run_succ, hstep]
    exact hrun

/-- The edge that takes the echo still leaves the held request waiting, with the port free after it (R42, R43). -/
theorem step_takes_echo {s : State} {r : Request} {rest : List EdgeInput} (hp : s.echoPending = true)
    (hh : s.held = none ∨ s.held = some r) (hhost : s.host = { rst := false, req := some r, echoReady := true } :: rest) :
    ∃ t, step s = .next t ∧ KeepsMotorState s t ∧ t.trace = s.trace ++ [.echo s.echoByte] ∧ t.echoPending = false ∧
      t.held = some r ∧ t.host = rest := by
  have hedge := edgeInput_cons hhost
  have hstep := step_of_stalled_request (r := r) (by rw [hedge]) (by rw [hedge]) hp hh
  rw [hedge] at hstep
  exact ⟨_, hstep, (advance_keepsMotorState s _).trans (quietEdge_keepsMotorState _ _), by simp [hp], by simp,
    by simp, by simp [hhost]⟩

/-! ## Who writes the motor registers -/

/-- The operations that write motor registers (R95). -/
def WritesMotor (i : Instr) : Prop :=
  i = .init ∨ (∃ a b, i = .setSpeed a b) ∨ i = .cmdF ∨ i = .cmdB ∨ i = .cmdS

/-- Any other well-formed operation leaves the motor registers as they are (R95). -/
theorem exec_motorRegs_of_not_writesMotor {i : Instr} {s t : State} (hwf : i.WellFormed)
    (hmotor : ¬ WritesMotor i) (h : exec i s = .next t) : t.motorRegs = s.motorRegs := by
  cases i with
  | nop => cases h; rfl
  | cmdUnknown b =>
    obtain ⟨-, rfl⟩ := exec_cmdUnknown_next hwf h
    rfl
  | cmdF | cmdB | cmdS | setSpeed _ _ | init => simp [WritesMotor] at hmotor

/-- Only INIT writes `TOP` and `DIV` (R24). -/
theorem exec_keepsCarrier_of_ne_init {i : Instr} {s t : State} (hinit : i ≠ .init) (h : exec i s = .next t) :
    KeepsCarrier s t := by
  by_cases hnop : i = .nop
  · subst hnop
    cases h
    exact .refl s
  · exact exec_keepsCarrier h (initDone_of_exec_next hnop hinit h)

/-! ## The obligations -/

/-- Settles O42. -/
theorem acceptingEdgeRunsDecodedOperation : Obligations.AcceptingEdgeRunsDecodedOperation := by
  intro s r ready rest hhost hp hh
  have hedge := edgeInput_cons hhost
  rw [step_of_ready_request (by rw [hedge]) (by rw [hedge]) hp hh, advance_of_host_cons hhost]

/-- Settles O43: the fetched word is an accepting edge's request. -/
theorem fetchedWordRunsAtNextStep : Obligations.FetchedWordRunsAtNextStep := by
  intro s w
  have hword : BitVec.ofNat 74 (w.toNat % 2 ^ 80) = w := by
    rw [Nat.mod_eq_of_lt (w.isLt.trans (by decide)), BitVec.ofNat_toNat, BitVec.setWidth_eq]
  have hrun := acceptingEdgeRunsDecodedOperation (s.withFetchWord 80 w.toNat) (unpackRequest w) false s.host
    (by rw [State.withFetchWord, hword]) rfl (.inl rfl)
  exact hrun

/-- Settles O44: an edge without a request is a quiet edge, which takes the echo exactly if the host is ready. -/
theorem echoIsTransferredWhenReady : Obligations.EchoIsTransferredWhenReady := by
  intro s ready rest hp hh hhost
  have hedge := edgeInput_cons hhost
  have hstep := step_of_no_request hh (by rw [hedge]) (by rw [hedge])
  rw [hedge] at hstep
  have hkeep := (advance_keepsMotorState s none).trans (quietEdge_keepsMotorState _ ready)
  exact ⟨_, hstep, by simp [hp], hkeep.echoByte, hkeep.motorRegs, by simp [hp], by simp [State.reqReady, hp]⟩

/-- Settles O53: the outputs are copies of the registers, gated by `INIT_DONE` and `ECHO_PENDING`. -/
theorem statusAndEchoPortsShowTheRegisters : Obligations.StatusAndEchoPortsShowTheRegisters := by
  intro s
  refine ⟨fun hi => ⟨_, if_pos hi, rfl, rfl, rfl, rfl, rfl, rfl⟩, fun hi => ?_, fun hp => if_pos hp, fun hp => ?_⟩
  · exact if_neg (by simp [hi])
  · exact if_neg (by simp [hp])

/-- Settles O46: the check of the waiting request comes before everything but `rst`. -/
theorem changedWaitingRequestIsRefused : Obligations.ChangedWaitingRequestIsRefused := by
  intro s r hh hrst hreq
  simp [step, hrst, keepsRequest_of_changed hh hreq]

/-- Settles O38: the reset edge's writes, field by field. -/
theorem resetEdgeOverridesEverything : Obligations.ResetEdgeOverridesEverything := by
  intro s hrst
  refine ⟨_, step_of_reset hrst, rfl, rfl, rfl, rfl, fun c => ?_, rfl, rfl, rfl, rfl, rfl, rfl, rfl⟩
  cases c with
  | L => exact Channel.unspecified_cnt ..
  | R => exact Channel.unspecified_cnt ..

/-- Settles O37. -/
theorem resetStateHasSpecifiedValues : Obligations.ResetStateHasSpecifiedValues := by
  refine ⟨rfl, rfl, rfl, rfl, fun c => ?_, rfl⟩
  cases c with
  | L => rfl
  | R => rfl

/-- Settles O45: the stall for every number of edges, one edge that takes the echo, then an accepting edge. -/
theorem untakenEchoStallsThenRequestIsAccepted : Obligations.UntakenEchoStallsThenRequestIsAccepted := by
  intro n s r ready rest hp hh hhost
  refine ⟨fun k hk => ?stall, ?taken⟩
  case stall =>
    rw [← Nat.add_sub_of_le hk, List.replicate_add, List.append_assoc] at hhost
    obtain ⟨t, hrun, -, ht⟩ := run_stalledOn k hp hh hhost
    exact ⟨t, hrun, ht.echoPending, ht.trace, ht.motorRegs⟩
  case taken =>
    obtain ⟨t, hrun, hthost, ht⟩ := run_stalledOn n hp hh hhost
    obtain ⟨u, hstep, hkeep, htrace, hpu, hheld, huhost⟩ := step_takes_echo ht.echoPending ht.held hthost
    refine ⟨u, (run_succ_of_next hrun).trans hstep, hkeep.motorRegs.trans ht.motorRegs, ?_, ?_⟩
    · rw [htrace, ht.trace, ht.echoByte]
    · exact acceptingEdgeRunsDecodedOperation u r ready rest huhost hpu (.inr hheld)

/-- Settles O33: a quiet edge keeps the motor state, and an accepted operation keeps what it does not write. -/
theorem onlyMotorOperationsWriteMotorRegisters : Obligations.OnlyMotorOperationsWriteMotorRegisters := by
  intro s t h hrst
  obtain ⟨hrst', -⟩ | ⟨-, -, r, -, hacc, hexec⟩ | ⟨-, -, rfl⟩ := step_next_cases h
  case inl => simp [hrst] at hrst'
  case inr.inl =>
    have htick := (advance_keepsMotorState s none).trans (tick_keepsMotorState _)
    obtain ⟨hwf, -⟩ := encode_decodeRequest r
    constructor
    · refine fun hne => ⟨r, hacc, ?_⟩
      by_contra hmotor
      exact hne ((exec_motorRegs_of_not_writesMotor hwf hmotor hexec).trans htick.motorRegs)
    · refine fun hne => ⟨r, hacc, ?_⟩
      by_contra hinit
      have hkeep := htick.toKeepsCarrier.trans (exec_keepsCarrier_of_ne_init hinit hexec)
      obtain ⟨c, hc⟩ | ⟨c, hc⟩ := hne
      · exact hc (hkeep.top c)
      · exact hc (hkeep.div c)
  case inr.inr =>
    have hkeep := (advance_keepsMotorState s s.edgeInput.req).trans
      (quietEdge_keepsMotorState _ s.edgeInput.echoReady)
    constructor
    · exact fun hne => absurd hkeep.motorRegs hne
    · rintro (⟨c, hc⟩ | ⟨c, hc⟩)
      · exact absurd (hkeep.top c) hc
      · exact absurd (hkeep.div c) hc

end Sys2Proof.Machine
end

section
/-! PROOFS. The invariant of `10_state.md` section 3 (R26, R29, R37, R139): each shared operation keeps it, hence every
edge does. -/

namespace Sys2Proof.Machine

/-! ## One channel -/

/-- A channel of the built machine keeps R29 when it is driven by any percent. -/
theorem ChannelInv.drive {ch : Channel} (h : ChannelInv Config.built ch) (p : Int) :
    ChannelInv Config.built (ch.drive (mapPercent Config.built p ch.top.toNat)) := by
  obtain ⟨-, ⟨hge, hle⟩, hduty, hformula, hdir⟩ := everyLegalConfigurationMapsInRange Config.built built_legal p ch
  exact ⟨hge, hle, hformula, hduty, hdir, h.top_eq, h.div_eq, h.cnt_le, h.act_le⟩

/-- A counter below `TOP` advances without a carry. -/
theorem toNat_add_one_of_ne {cnt top : Count} (hle : cnt.toNat ≤ top.toNat) (hne : cnt ≠ top) :
    (cnt + 1).toNat = cnt.toNat + 1 ∧ cnt.toNat + 1 ≤ top.toNat := by
  have hlt : cnt.toNat < top.toNat := lt_of_le_of_ne hle fun h => hne (BitVec.eq_of_toNat_eq h)
  have htop := top.isLt
  refine ⟨?_, hlt⟩
  rw [BitVec.toNat_add, show (1 : Count).toNat = 1 from rfl, Nat.mod_eq_of_lt (by omega)]

/-- The tick keeps `CNT` and `ACT` in their ranges (R20, R132). -/
theorem ChannelInv.tick {ch : Channel} (h : ChannelInv Config.built ch) : ChannelInv Config.built ch.tick := by
  have hcnt : ch.tick.cnt.toNat ≤ ch.top.toNat := by
    rw [Channel.tick_cnt]
    split
    · simp
    · next hne =>
        obtain ⟨hadd, hle⟩ := toNat_add_one_of_ne h.cnt_le hne
        exact hadd.trans_le hle
  have hact : ch.tick.act.toNat ≤ ch.top.toNat := by
    rw [Channel.tick_act]
    split
    · exact h.duty_le
    · exact h.act_le
  exact ⟨by simpa using h.speed_ge, by simpa using h.speed_le, by simpa using h.duty_eq, by simpa using h.duty_le,
    by simpa using h.dir_iff, by simpa using h.top_eq, by simpa using h.div_eq, by rwa [ch.tick_top],
    by rwa [ch.tick_top]⟩

/-- What INIT writes to a channel meets R29. -/
theorem channelInv_initialised : ChannelInv Config.built (Channel.initialised Config.built) := by
  constructor <;> decide

/-! ## The whole state -/

/-- In an initialised state only the enables, the channels and their phase matter. -/
theorem Inv.of_initDone {s : State} (hi : s.initDone = true) (hoe : s.dirOe = true) (hen : s.pwmEn = true)
    (hch : ∀ c, ChannelInv Config.built (s.ch c)) (hphase : s.left.cnt = s.right.cnt) : Inv s where
  dirOe_eq := hoe.trans hi.symm
  pwmEn_eq := hen.trans hi.symm
  channels _ := hch
  phase := hphase
  cnt_zero h0 := by simp [hi] at h0
  no_echo h0 := by simp [hi] at h0

/-- Before INIT only the enables, the counters and the echo matter. -/
theorem Inv.of_not_initDone {s : State} (hi : s.initDone = false) (hoe : s.dirOe = false) (hen : s.pwmEn = false)
    (hcnt : ∀ c, (s.ch c).cnt = 0) (hp : s.echoPending = false) : Inv s where
  dirOe_eq := hoe.trans hi.symm
  pwmEn_eq := hen.trans hi.symm
  channels h1 := by simp [hi] at h1
  phase := (hcnt .L).trans (hcnt .R).symm
  cnt_zero _ := hcnt
  no_echo _ := hp

/-- The invariant does not speak of the echo byte, the trace and the model's own fields, nor, after INIT, of the echo. -/
theorem Inv.congr {s t : State} (h : Inv s) (hleft : t.left = s.left) (hright : t.right = s.right)
    (hi : t.initDone = s.initDone) (hoe : t.dirOe = s.dirOe) (hen : t.pwmEn = s.pwmEn)
    (hp : s.initDone = false → t.echoPending = s.echoPending) : Inv t := by
  have hch (c : ChannelId) : t.ch c = s.ch c := by cases c <;> assumption
  exact ⟨by rw [hoe, hi, h.dirOe_eq], by rw [hen, hi, h.pwmEn_eq], fun h1 c => hch c ▸ h.channels (hi ▸ h1) c,
    by rw [hleft, hright, h.phase], fun h0 c => hch c ▸ h.cnt_zero (hi ▸ h0) c,
    fun h0 => (hp (hi ▸ h0)).trans (h.no_echo (hi ▸ h0))⟩

theorem Inv.advance {s : State} (h : Inv s) (waiting : Option Request) : Inv (s.advance waiting) :=
  h.congr rfl rfl rfl rfl rfl fun _ => rfl

theorem Inv.sendEcho {s : State} (h : Inv s) (hi : s.initDone = true) (b : Byte) : Inv (s.sendEcho b) :=
  h.congr rfl rfl rfl rfl rfl fun h0 => by simp [hi] at h0

theorem Inv.takeEcho {s : State} (h : Inv s) : Inv s.takeEcho :=
  h.congr s.takeEcho_left s.takeEcho_right s.takeEcho_initDone s.takeEcho_dirOe s.takeEcho_pwmEn
    fun h0 => by rw [s.takeEcho_echoPending, h.no_echo h0]

theorem Inv.setSpeeds {s : State} (h : Inv s) (hi : s.initDone = true) (l r : Int) :
    Inv (setSpeeds Config.built l r s) := by
  refine .of_initDone hi (h.dirOe_eq.trans hi) (h.pwmEn_eq.trans hi) (fun c => ?_) h.phase
  cases c with
  | L => exact (h.channels hi .L).drive l
  | R => exact (h.channels hi .R).drive r

theorem Inv.dispatch {s : State} (h : Inv s) (hi : s.initDone = true) (d : Directive) :
    Inv (dispatch Config.built d s) := by
  obtain ⟨p, -, hd⟩ | ⟨-, hd⟩ := dispatch_cases Config.built d s
  · rw [hd]; exact h.setSpeeds hi p.1 p.2
  · rw [hd]; exact h

/-- INIT establishes the invariant from any state (R96). -/
theorem inv_initialised (s : State) : Inv (initialised Config.built s) :=
  .of_initDone rfl rfl rfl (fun c => by rw [initialised_ch]; exact channelInv_initialised) rfl

/-- A reset edge establishes the invariant from any state (R170). -/
theorem inv_resetEdge (s : State) : Inv s.resetEdge :=
  .of_not_initDone rfl rfl rfl (fun c => by cases c <;> rfl) rfl

/-- Both channels tick together, so they stay in phase (R139, decision D15); before INIT they hold. -/
theorem Inv.tick {s : State} (h : Inv s) : Inv s.tick := by
  cases hi : s.initDone with
  | false => rwa [s.tick_of_disabled (h.pwmEn_eq.trans hi)]
  | true =>
    have hen := h.pwmEn_eq.trans hi
    obtain ⟨htop, -⟩ := h.carrier_eq hi
    refine .of_initDone (by simp [hi]) (by simp [h.dirOe_eq, hi]) (by simp [hen]) (fun c => ?_) ?_
    · rw [s.tick_of_enabled hen]; exact (h.channels hi c).tick
    · simp [State.tick_left, State.tick_right, hen, h.phase, htop]

theorem Inv.quietEdge {s : State} (h : Inv s) (ready : Bool) : Inv (s.quietEdge ready) := by
  cases ready with
  | false => exact h.tick
  | true => exact h.tick.takeEcho

/-- Every operation that has a next state keeps the invariant. -/
theorem Inv.exec {i : Instr} {s t : State} (h : Inv s) (hexec : exec i s = .next t) : Inv t := by
  obtain ⟨-, rfl⟩ | ⟨-, -, rfl⟩ | ⟨hi, l, r, -, rfl⟩ | ⟨hi, b, -, rfl⟩ := exec_next_cases hexec
  · exact h
  · exact inv_initialised s
  · exact h.setSpeeds hi l r
  · exact (h.dispatch hi _).sendEcho ((dispatch_keepsCarrier _ _ s).initDone.trans hi) b

theorem Inv.step {s t : State} (h : Inv s) (hstep : step s = .next t) : Inv t := by
  obtain ⟨-, rfl⟩ | ⟨-, -, r, -, -, hexec⟩ | ⟨-, -, rfl⟩ := step_next_cases hstep
  · exact inv_resetEdge _
  · exact (h.advance none).tick.exec hexec
  · exact (h.advance _).quietEdge _

/-! ## The obligations -/

/-- Settles O39. -/
theorem invariantHoldsAfterReset : Obligations.InvariantHoldsAfterReset :=
  .of_not_initDone rfl rfl rfl (fun c => by cases c <;> rfl) rfl

/-- Settles O40, edge kind by edge kind. -/
theorem everyStepKeepsTheInvariant : Obligations.EveryStepKeepsTheInvariant :=
  fun _ _ h hstep => h.step hstep

/-- Settles O50: the invariant ties the enables to `INIT_DONE`, `DIR` to the speed's sign and `ACT` to `TOP`. -/
theorem pinsAreDrivenExactlyAfterInit : Obligations.PinsAreDrivenExactlyAfterInit := by
  intro s c h
  refine ⟨fun hi => ⟨?_, ?_⟩, fun hi => ⟨?dir, ?pwm, ?last⟩⟩
  · simp [State.dirPin, h.dirOe_eq, hi]
  · simp [State.pwmPin, h.pwmEn_eq, hi]
  case dir =>
    have hdir : (s.ch c).dir = decide (0 ≤ (s.ch c).speed.toInt) :=
      Bool.eq_iff_iff.mpr ((h.channels hi c).dir_iff.trans decide_eq_true_iff.symm)
    simp [State.dirPin, h.dirOe_eq, hi, hdir]
  case pwm => simp [State.pwmPin, h.pwmEn_eq, hi]
  case last =>
    intro hcnt
    simpa [State.pwmPin, h.pwmEn_eq, hi, hcnt] using (h.channels hi c).act_le

end Sys2Proof.Machine
end

section
/-! PROOFS. The carrier period (`43_pwm_generator.md` R132 to R134, R138): the counters at one edge, and the level that a
period keeps. -/

namespace Sys2Proof.Machine

/-! ## One edge -/

/-- At an edge without reset after INIT the counter and the compare value are those of the tick, whatever operation is
accepted: none of them writes `CNT` or `ACT` (R132, R153). -/
theorem step_cnt_act_eq_tick {s t : State} (h : step s = .next t) (hi : s.initDone = true) (hen : s.pwmEn = true)
    (hrst : s.edgeInput.rst = false) (c : ChannelId) :
    (t.ch c).cnt = (s.ch c).tick.cnt ∧ (t.ch c).act = (s.ch c).tick.act := by
  have htick (waiting : Option Request) : (s.advance waiting).tick.ch c = (s.ch c).tick := by
    rw [State.tick_of_enabled (s.advance waiting) hen]
    cases c <;> rfl
  obtain ⟨hrst', -⟩ | ⟨-, -, r, -, -, hexec⟩ | ⟨-, -, rfl⟩ := step_next_cases h
  · simp [hrst] at hrst'
  · have hrest := exec_keepsRest hexec (by simpa using hi) c
    rw [htick] at hrest
    exact ⟨hrest.cnt, hrest.act⟩
  · have hquiet : ((s.advance s.edgeInput.req).quietEdge s.edgeInput.echoReady).ch c = (s.ch c).tick := by
      rw [← htick s.edgeInput.req, quietEdge_eq]
      cases c <;> split <;> simp
    exact ⟨by rw [hquiet], by rw [hquiet]⟩

/-- The coming edge of a run without reset is no reset edge. -/
theorem NoReset.edgeInput {k : Nat} {s : State} (h : NoReset (k + 1) s) : s.edgeInput.rst = false :=
  (forall_take_succ_host (P := fun e => e.rst = false) rfl h).1

/-- Every edge that has a next state takes one input of the host. -/
theorem step_host {s t : State} (h : step s = .next t) : t.host = s.host.tail := by
  obtain ⟨-, rfl⟩ | ⟨-, -, r, -, -, hexec⟩ | ⟨-, -, rfl⟩ := step_next_cases h
  · simp
  · rw [(exec_keepsHost hexec).1]; simp
  · simp

theorem NoReset.step {k : Nat} {s t : State} (h : NoReset (k + 1) s) (hstep : step s = .next t) : NoReset k t := by
  unfold NoReset
  rw [step_host hstep]
  exact (forall_take_succ_host (P := fun e => e.rst = false) rfl h).2

/-! ## A period -/

/-- From any count of a period, `k` edges within it advance the counter by `k` and leave the compare value (R134). -/
theorem run_within_period (k : Nat) {s t : State} (c : ChannelId) (hinv : Inv s) (hi : s.initDone = true)
    (hk : (s.ch c).cnt.toNat + k ≤ (s.ch c).top.toNat) (hnr : NoReset k s)
    (hrun : Host.Core.run Sys2Proof.core k s = .next t) :
    Inv t ∧ t.initDone = true ∧ (t.ch c).cnt.toNat = (s.ch c).cnt.toNat + k ∧ (t.ch c).act = (s.ch c).act := by
  induction k generalizing s with
  | zero =>
    rw [run_zero] at hrun
    cases hrun
    exact ⟨hinv, hi, rfl, rfl⟩
  | succ k ih =>
    obtain ⟨u, hstep, hrest⟩ := run_succ_next hrun
    have hkeep := step_keepsCarrier hstep hi hnr.edgeInput
    obtain ⟨hcnt, hact⟩ := step_cnt_act_eq_tick hstep hi (hinv.pwmEn_eq.trans hi) hnr.edgeInput c
    have hne : (s.ch c).cnt ≠ (s.ch c).top := fun heq => by rw [heq] at hk; omega
    have hadd := (toNat_add_one_of_ne (hinv.channels hi c).cnt_le hne).1
    rw [Channel.tick_cnt, if_neg hne] at hcnt
    rw [Channel.tick_act, if_neg hne] at hact
    obtain ⟨hinv', hi', hcnt', hact'⟩ := ih (hinv.step hstep) (hkeep.initDone.trans hi)
      (by rw [hcnt, hadd, hkeep.top c]; omega) (hnr.step hstep) hrest
    exact ⟨hinv', hi', by rw [hcnt', hcnt, hadd]; omega, hact'.trans hact⟩

/-! ## The obligations -/

/-- Settles O48: the tick's two cases. -/
theorem countersTickAtEveryEdge : Obligations.CountersTickAtEveryEdge := by
  intro s t c hi hen hrst h
  obtain ⟨hcnt, hact⟩ := step_cnt_act_eq_tick h hi hen hrst c
  rw [hcnt, hact, Channel.tick_cnt, Channel.tick_act]
  exact ⟨fun hwrap => by simp [hwrap], fun hne => by simp [hne]⟩

/-- Settles O49, by induction on the number of edges from any count of the period. -/
theorem carrierPeriodKeepsItsLevel : Obligations.CarrierPeriodKeepsItsLevel := by
  intro s t c k hinv hi hcnt0 hk hnr hrun
  have hzero : (s.ch c).cnt.toNat = 0 := by rw [hcnt0]; rfl
  obtain ⟨hinv', hi', hcnt, hact⟩ := run_within_period k c hinv hi (by omega) hnr hrun
  rw [hzero, Nat.zero_add] at hcnt
  exact ⟨hcnt, hact, by simp [State.pwmPin, hinv'.pwmEn_eq, hi', hcnt, hact]⟩

end Sys2Proof.Machine
end

section
/-! PROOFS. Relations between two states that the machine respects (`00_scope.md` R6, `10_state.md` R21, R37,
`43_pwm_generator.md` R142): a relation that the shared operations respect is respected by every operation, every run of
operations, and, if the ports see it alike, every run of edges. -/

namespace Sys2Proof.Machine

/-! ## Outcomes -/

/-- Two steps with the same outcome: two related next states, or one refusal; there is no fault. -/
theorem SameOutcome.cases {R : State → State → Prop} {a b : Host.Outcome State Fault Refusal} (h : SameOutcome R a b) :
    (∃ s t, a = .next s ∧ b = .next t ∧ R s t) ∨ ∃ r, a = .refused r ∧ b = .refused r := by
  cases a with
  | next s =>
    cases b with
    | next t => exact .inl ⟨s, t, rfl, rfl, h⟩
    | fault f => exact nomatch f
    | refused r => exact h.elim
  | fault f => exact nomatch f
  | refused r =>
    cases b with
    | next t => exact h.elim
    | fault f => exact nomatch f
    | refused r' => cases h; exact .inr ⟨r, rfl, rfl⟩

theorem SameOutcome.mono {R Q : State → State → Prop} (hRQ : ∀ {s t}, R s t → Q s t)
    {a b : Host.Outcome State Fault Refusal} (h : SameOutcome R a b) : SameOutcome Q a b := by
  obtain ⟨s, t, rfl, rfl, hst⟩ | ⟨r, rfl, rfl⟩ := h.cases
  · exact hRQ hst
  · rfl

/-! ## The operation layer -/

/-- `R` is respected by the writes that the operations are made of, and by the taking of an echo. -/
structure OpCongruence (R : State → State → Prop) : Prop where
  initDone_eq : ∀ {s t}, R s t → s.initDone = t.initDone
  initialised : ∀ {s t}, R s t → R (initialised Config.built s) (initialised Config.built t)
  setSpeeds : ∀ {s t} (l r : Int), s.initDone = true → R s t →
    R (setSpeeds Config.built l r s) (setSpeeds Config.built l r t)
  sendEcho : ∀ {s t} (b : Byte), s.initDone = true → R s t → R (s.sendEcho b) (t.sendEcho b)
  takeEcho : ∀ {s t}, R s t → R s.takeEcho t.takeEcho

section OpCongruence

variable {R : State → State → Prop} {s t : State}

theorem OpCongruence.whenInitialised (hR : OpCongruence R) (h : R s t) {k k' : State}
    (hk : s.initDone = true → R k k') :
    SameOutcome R (whenInitialised Config.built s k) (whenInitialised Config.built t k') := by
  rw [whenInitialised_built, whenInitialised_built, ← hR.initDone_eq h]
  cases hi : s.initDone with
  | false => rfl
  | true => exact hk hi

theorem OpCongruence.dispatch (hR : OpCongruence R) (h : R s t) (hi : s.initDone = true) (d : Directive) :
    R (dispatch Config.built d s) (dispatch Config.built d t) := by
  obtain hd | ⟨v, -, hd⟩ := directiveSpeeds_built_cases d
  · rw [dispatch_of_none hd, dispatch_of_none hd]; exact h
  · rw [dispatch_of_some hd, dispatch_of_some hd]; exact hR.setSpeeds v v hi h

theorem OpCongruence.command (hR : OpCongruence R) (h : R s t) (b : Byte) :
    SameOutcome R (command Config.built b s) (command Config.built b t) :=
  hR.whenInitialised h fun hi =>
    hR.sendEcho b ((dispatch_keepsCarrier _ _ s).initDone.trans hi) (hR.dispatch h hi _)

/-- Every operation respects `R`. -/
theorem OpCongruence.exec (hR : OpCongruence R) (h : R s t) (i : Instr) : SameOutcome R (exec i s) (exec i t) := by
  cases i with
  | nop => exact h
  | cmdF => exact hR.command h _
  | cmdB => exact hR.command h _
  | cmdS => exact hR.command h _
  | cmdUnknown b => exact hR.command h b
  | setSpeed l r => exact hR.whenInitialised h fun hi => hR.setSpeeds l r hi h
  | init =>
    rw [exec_init_eq, exec_init_eq, ← hR.initDone_eq h]
    cases s.initDone with
    | false => exact hR.initialised h
    | true => rfl

end OpCongruence

/-! ## Runs of operations -/

theorem operate_of_next {i : Instr} {s t : State} (h : exec i s = .next t) : operate i s = .next t.takeEcho := by
  rw [operate, h]

theorem operate_of_refused {i : Instr} {s : State} {r : Refusal} (h : exec i s = .refused r) :
    operate i s = .refused r := by
  rw [operate, h]

theorem runOps_nil (s : State) : runOps [] s = .next s := rfl

theorem runOps_cons_of_next {i : Instr} {s t : State} (h : operate i s = .next t) (is : List Instr) :
    runOps (i :: is) s = runOps is t := by
  rw [runOps, h]

theorem runOps_cons_of_refused {i : Instr} {s : State} {r : Refusal} (h : operate i s = .refused r) (is : List Instr) :
    runOps (i :: is) s = .refused r := by
  rw [runOps, h]

section OpCongruence

variable {R : State → State → Prop} {s t : State}

theorem OpCongruence.operate (hR : OpCongruence R) (h : R s t) (i : Instr) :
    SameOutcome R (operate i s) (operate i t) := by
  obtain ⟨u, v, hu, hv, huv⟩ | ⟨r, hs, ht⟩ := (hR.exec h i).cases
  · rw [operate_of_next hu, operate_of_next hv]; exact hR.takeEcho huv
  · rw [operate_of_refused hs, operate_of_refused ht]; rfl

/-- Every run of operations respects `R`. -/
theorem OpCongruence.runOps (hR : OpCongruence R) (ops : List Instr) {s t : State} (h : R s t) :
    SameOutcome R (runOps ops s) (runOps ops t) := by
  induction ops generalizing s t with
  | nil => exact h
  | cons i is ih =>
    obtain ⟨u, v, hu, hv, huv⟩ | ⟨r, hs, ht⟩ := (hR.operate h i).cases
    · rw [runOps_cons_of_next hu, runOps_cons_of_next hv]; exact ih huv
    · rw [runOps_cons_of_refused hs, runOps_cons_of_refused ht]; rfl

end OpCongruence

/-! ## The edges -/

/-- `R` is respected by what an edge does beside an operation, and the two states' ports see the host alike. -/
structure EdgeCongruence (R : State → State → Prop) : Prop extends OpCongruence R where
  host_eq : ∀ {s t}, R s t → s.host = t.host
  held_eq : ∀ {s t}, R s t → s.held = t.held
  echoPending_eq : ∀ {s t}, R s t → s.echoPending = t.echoPending
  advance : ∀ {s t} (waiting : Option Request), R s t → R (s.advance waiting) (t.advance waiting)
  tick : ∀ {s t}, R s t → R s.tick t.tick
  resetEdge : ∀ {s t}, R s t → R s.resetEdge t.resetEdge

section EdgeCongruence

variable {R : State → State → Prop} {s t : State}

theorem EdgeCongruence.quietEdge (hR : EdgeCongruence R) (h : R s t) (ready : Bool) :
    R (s.quietEdge ready) (t.quietEdge ready) := by
  cases ready with
  | false => exact hR.tick h
  | true => exact hR.takeEcho (hR.tick h)

/-- Every edge respects `R`. -/
theorem EdgeCongruence.step (hR : EdgeCongruence R) (h : R s t) : SameOutcome R (step s) (step t) := by
  have hedge : t.edgeInput = s.edgeInput := by rw [State.edgeInput, State.edgeInput, hR.host_eq h]
  have hkeeps : t.keepsRequest s.edgeInput.req = s.keepsRequest s.edgeInput.req := by
    rw [State.keepsRequest, State.keepsRequest, hR.held_eq h]
  have haccepted : t.accepted s.edgeInput = s.accepted s.edgeInput := by
    rw [State.accepted, State.accepted, State.reqReady, State.reqReady, hR.echoPending_eq h]
  rw [Machine.step, Machine.step, hedge, hkeeps, haccepted]
  cases s.edgeInput.rst with
  | true => exact hR.resetEdge (hR.advance _ h)
  | false =>
    cases s.keepsRequest s.edgeInput.req with
    | false => rfl
    | true =>
      cases s.accepted s.edgeInput with
      | none => exact hR.quietEdge (hR.advance _ h) _
      | some r => exact hR.exec (hR.tick (hR.advance _ h)) _

/-- Every run of edges respects `R`. -/
theorem EdgeCongruence.run (hR : EdgeCongruence R) (k : Nat) {s t : State} (h : R s t) :
    SameOutcome R (Host.Core.run Sys2Proof.core k s) (Host.Core.run Sys2Proof.core k t) := by
  induction k generalizing s t with
  | zero => exact h
  | succ k ih =>
    rw [run_succ, run_succ]
    obtain ⟨u, v, hu, hv, huv⟩ | ⟨r, hs, ht⟩ := (hR.step h).cases
    · rw [hu, hv]; exact ih huv
    · rw [hs, ht]; rfl

end EdgeCongruence

/-! ## Agreement at the operation layer -/

theorem ChannelAgree.refl (a : Channel) : ChannelAgree a a := ⟨rfl, rfl, rfl, rfl, rfl⟩

theorem ChannelAgree.trans {a b c : Channel} (h : ChannelAgree a b) (h' : ChannelAgree b c) : ChannelAgree a c :=
  ⟨h.speed_eq.trans h'.speed_eq, h.dir_eq.trans h'.dir_eq, h.duty_eq.trans h'.duty_eq, h.top_eq.trans h'.top_eq,
    h.div_eq.trans h'.div_eq⟩

theorem OpAgree.refl (s : State) : OpAgree s s := ⟨.refl _, .refl _, rfl, rfl, rfl, rfl, rfl, rfl⟩

theorem OpAgree.trans {s t u : State} (h : OpAgree s t) (h' : OpAgree t u) : OpAgree s u :=
  ⟨h.left.trans h'.left, h.right.trans h'.right, h.initDone_eq.trans h'.initDone_eq, h.dirOe_eq.trans h'.dirOe_eq,
    h.pwmEn_eq.trans h'.pwmEn_eq, h.echoPending_eq.trans h'.echoPending_eq, h.echoByte_eq.trans h'.echoByte_eq,
    h.trace_eq.trans h'.trace_eq⟩

/-- A drive reads of a channel its TOP only, and writes the same to both (R98). -/
theorem ChannelAgree.drive {a b : Channel} (h : ChannelAgree a b) (p : Int) :
    ChannelAgree (a.drive (mapPercent Config.built p a.top.toNat)) (b.drive (mapPercent Config.built p b.top.toNat)) := by
  obtain ⟨hspeed, hdir, hduty⟩ := drive_mapPercent_of_top_eq Config.built p h.top_eq
  exact ⟨hspeed, hdir, hduty, h.top_eq, h.div_eq⟩

theorem OpAgree.setSpeeds {s t : State} (h : OpAgree s t) (l r : Int) :
    OpAgree (setSpeeds Config.built l r s) (setSpeeds Config.built l r t) where
  left := h.left.drive l
  right := h.right.drive r
  initDone_eq := h.initDone_eq
  dirOe_eq := h.dirOe_eq
  pwmEn_eq := h.pwmEn_eq
  echoPending_eq := h.echoPending_eq
  echoByte_eq := h.echoByte_eq
  trace_eq := by
    simp only [setSpeeds_trace, setSpeeds_left, setSpeeds_right, h.trace_eq, (h.left.drive l).dir_eq,
      (h.left.drive l).duty_eq, (h.right.drive r).dir_eq, (h.right.drive r).duty_eq]

theorem OpAgree.takeEcho {s t : State} (h : OpAgree s t) : OpAgree s.takeEcho t.takeEcho := by
  constructor <;> simp [h.left, h.right, h.initDone_eq, h.dirOe_eq, h.pwmEn_eq, h.echoPending_eq, h.echoByte_eq, h.trace_eq]

theorem opAgree_congruence : OpCongruence OpAgree where
  initDone_eq h := h.initDone_eq
  initialised h := ⟨.refl _, .refl _, rfl, rfl, rfl, h.echoPending_eq, h.echoByte_eq, by simp [h.trace_eq]⟩
  setSpeeds l r _ h := h.setSpeeds l r
  sendEcho b _ h := ⟨h.left, h.right, h.initDone_eq, h.dirOe_eq, h.pwmEn_eq, rfl, rfl, h.trace_eq⟩
  takeEcho h := h.takeEcho

/-! ## Agreement but for the stored speeds -/

/-- The state with other `SPEED` values. -/
def State.withSpeeds (s : State) (l r : SpeedWord) : State :=
  { s with left := { s.left with speed := l }, right := { s.right with speed := r } }

/-- Two states agree but for `SPEED` when one is the other with other speeds. -/
theorem equalButSpeed_iff {s t : State} : EqualButSpeed s t ↔ ∃ l r, s = t.withSpeeds l r := by
  constructor
  · exact fun h => ⟨s.left.speed, s.right.speed, h.symm⟩
  · rintro ⟨l, r, rfl⟩
    rfl

theorem Channel.tick_withSpeed (ch : Channel) (v : SpeedWord) :
    Channel.tick { ch with speed := v } = { ch.tick with speed := v } := by
  unfold Channel.tick; split <;> rfl

theorem State.tick_withSpeeds (s : State) (l r : SpeedWord) : (s.withSpeeds l r).tick = s.tick.withSpeeds l r := by
  cases hen : s.pwmEn with
  | false => rw [State.tick_of_disabled s hen, State.tick_of_disabled (s.withSpeeds l r) hen]
  | true => simp [State.tick, State.withSpeeds, hen, Channel.tick_withSpeed]

theorem State.takeEcho_withSpeeds (s : State) (l r : SpeedWord) :
    (s.withSpeeds l r).takeEcho = s.takeEcho.withSpeeds l r := by
  unfold State.takeEcho State.withSpeeds; split <;> rfl

theorem equalButSpeed_congruence : EdgeCongruence EqualButSpeed where
  initDone_eq h := by obtain ⟨l, r, rfl⟩ := equalButSpeed_iff.mp h; rfl
  initialised h := by obtain ⟨l, r, rfl⟩ := equalButSpeed_iff.mp h; rfl
  setSpeeds _ _ _ h := by obtain ⟨l, r, rfl⟩ := equalButSpeed_iff.mp h; rfl
  sendEcho _ _ h := by obtain ⟨l, r, rfl⟩ := equalButSpeed_iff.mp h; rfl
  takeEcho {s t} h := by
    obtain ⟨l, r, rfl⟩ := equalButSpeed_iff.mp h
    exact equalButSpeed_iff.mpr ⟨l, r, t.takeEcho_withSpeeds l r⟩
  host_eq h := by obtain ⟨l, r, rfl⟩ := equalButSpeed_iff.mp h; rfl
  held_eq h := by obtain ⟨l, r, rfl⟩ := equalButSpeed_iff.mp h; rfl
  echoPending_eq h := by obtain ⟨l, r, rfl⟩ := equalButSpeed_iff.mp h; rfl
  advance _ h := by obtain ⟨l, r, rfl⟩ := equalButSpeed_iff.mp h; rfl
  tick {s t} h := by
    obtain ⟨l, r, rfl⟩ := equalButSpeed_iff.mp h
    exact equalButSpeed_iff.mpr ⟨l, r, t.tick_withSpeeds l r⟩
  resetEdge h := by obtain ⟨l, r, rfl⟩ := equalButSpeed_iff.mp h; rfl

/-! ## Agreement on the specified elements -/

/-- The relation that every edge respects: without the invariant, `PWM_EN` could tick counters before INIT by an
unspecified `TOP`. -/
structure InvSpecifiedAgree (s t : State) : Prop where
  inv : Inv s
  agree : SpecifiedAgree s t

theorem advance_ch (s : State) (waiting : Option Request) (c : ChannelId) : (s.advance waiting).ch c = s.ch c := by
  cases c <;> rfl

theorem takeEcho_ch (s : State) (c : ChannelId) : s.takeEcho.ch c = s.ch c := by
  cases c <;> simp

/-- With both channels equal, only the other elements remain. -/
theorem SpecifiedAgree.of_channels_eq {s t : State} (hleft : s.left = t.left) (hright : s.right = t.right)
    (hi : s.initDone = t.initDone) (hoe : s.dirOe = t.dirOe) (hen : s.pwmEn = t.pwmEn)
    (hp : s.echoPending = t.echoPending) (hb : s.echoPending = true → s.echoByte = t.echoByte)
    (htrace : s.trace = t.trace) (hhost : s.host = t.host) (hheld : s.held = t.held) (hresets : s.resets = t.resets) :
    SpecifiedAgree s t :=
  ⟨hi, hoe, hen, fun c => by cases c <;> simp [hleft, hright], fun _ => ⟨hleft, hright⟩, hp, hb, htrace, hhost, hheld,
    hresets⟩

theorem SpecifiedAgree.initialised {s t : State} (h : SpecifiedAgree s t) :
    SpecifiedAgree (initialised Config.built s) (initialised Config.built t) :=
  .of_channels_eq rfl rfl rfl rfl rfl h.echoPending_eq h.echoByte_eq (by simp [h.trace_eq]) h.host_eq h.held_eq
    h.resets_eq

/-- After INIT the channels are equal, so SET_SPEED writes the same (R37). -/
theorem SpecifiedAgree.setSpeeds {s t : State} (h : SpecifiedAgree s t) (hi : s.initDone = true) (l r : Int) :
    SpecifiedAgree (setSpeeds Config.built l r s) (setSpeeds Config.built l r t) := by
  obtain ⟨hleft, hright⟩ := h.channels_eq hi
  exact .of_channels_eq (by simp [hleft]) (by simp [hright]) h.initDone_eq h.dirOe_eq h.pwmEn_eq h.echoPending_eq
    h.echoByte_eq (by simp only [setSpeeds_trace, setSpeeds_left, setSpeeds_right, hleft, hright, h.trace_eq]) h.host_eq
    h.held_eq h.resets_eq

theorem SpecifiedAgree.sendEcho {s t : State} (h : SpecifiedAgree s t) (b : Byte) :
    SpecifiedAgree (s.sendEcho b) (t.sendEcho b) :=
  ⟨h.initDone_eq, h.dirOe_eq, h.pwmEn_eq, fun c => by simpa only [sendEcho_ch] using h.cnt_eq c, h.channels_eq, rfl,
    fun _ => rfl, h.trace_eq, h.host_eq, h.held_eq, h.resets_eq⟩

/-- A pending echo's byte is specified, so taking it emits the same event (R43). -/
theorem SpecifiedAgree.takeEcho {s t : State} (h : SpecifiedAgree s t) : SpecifiedAgree s.takeEcho t.takeEcho := by
  cases hp : s.echoPending with
  | false => rwa [s.takeEcho_of_not_pending hp, t.takeEcho_of_not_pending (h.echoPending_eq ▸ hp)]
  | true =>
    refine ⟨by simp [h.initDone_eq], by simp [h.dirOe_eq], by simp [h.pwmEn_eq], fun c => ?cnt,
      by simpa using h.channels_eq, by simp, by simp, ?trace, by simp [h.host_eq], by simp [h.held_eq],
      by simp [h.resets_eq]⟩
    case cnt => simpa only [takeEcho_ch] using h.cnt_eq c
    case trace => simp [hp, ← h.echoPending_eq, h.echoByte_eq hp, h.trace_eq]

theorem SpecifiedAgree.advance {s t : State} (h : SpecifiedAgree s t) (waiting : Option Request) :
    SpecifiedAgree (s.advance waiting) (t.advance waiting) :=
  ⟨h.initDone_eq, h.dirOe_eq, h.pwmEn_eq, fun c => by simpa only [advance_ch] using h.cnt_eq c, h.channels_eq,
    h.echoPending_eq, h.echoByte_eq, h.trace_eq, by simp [h.host_eq], rfl, h.resets_eq⟩

/-- The counters tick only after INIT, where the channels are equal (R26, R37, R132). -/
theorem SpecifiedAgree.tick {s t : State} (h : SpecifiedAgree s t) (hen : s.pwmEn = s.initDone) :
    SpecifiedAgree s.tick t.tick := by
  cases hi : s.initDone with
  | false =>
    have hs := hen.trans hi
    rwa [s.tick_of_disabled hs, t.tick_of_disabled (h.pwmEn_eq ▸ hs)]
  | true =>
    obtain ⟨hleft, hright⟩ := h.channels_eq hi
    exact .of_channels_eq (by simp [State.tick_left, h.pwmEn_eq, hleft]) (by simp [State.tick_right, h.pwmEn_eq, hright])
      (by simp [h.initDone_eq]) (by simp [h.dirOe_eq]) (by simp [h.pwmEn_eq]) (by simp [h.echoPending_eq])
      (by simpa using h.echoByte_eq) (by simp [h.trace_eq]) (by simp [h.host_eq]) (by simp [h.held_eq])
      (by simp [h.resets_eq])

/-- The free values after a reset edge depend on its number only (log entry 2). -/
theorem SpecifiedAgree.resetEdge {s t : State} (h : SpecifiedAgree s t) : SpecifiedAgree s.resetEdge t.resetEdge :=
  .of_channels_eq (by simp [h.resets_eq]) (by simp [h.resets_eq]) rfl rfl rfl rfl (by simp) h.trace_eq h.host_eq h.held_eq
    (by simp [h.resets_eq])

theorem invSpecifiedAgree_congruence : EdgeCongruence InvSpecifiedAgree where
  initDone_eq h := h.agree.initDone_eq
  initialised h := ⟨inv_initialised _, h.agree.initialised⟩
  setSpeeds l r hi h := ⟨h.inv.setSpeeds hi l r, h.agree.setSpeeds hi l r⟩
  sendEcho b hi h := ⟨h.inv.sendEcho hi b, h.agree.sendEcho b⟩
  takeEcho h := ⟨h.inv.takeEcho, h.agree.takeEcho⟩
  host_eq h := h.agree.host_eq
  held_eq h := h.agree.held_eq
  echoPending_eq h := h.agree.echoPending_eq
  advance w h := ⟨h.inv.advance w, h.agree.advance w⟩
  tick h := ⟨h.inv.tick, h.agree.tick h.inv.pwmEn_eq⟩
  resetEdge h := ⟨inv_resetEdge _, h.agree.resetEdge⟩

/-- The outputs are gated by the enables and `ECHO_PENDING`, so the unspecified elements do not show (R37, R43 to
R45). -/
theorem SpecifiedAgree.outputs_eq {s t : State} (h : SpecifiedAgree s t) (hinv : Inv s) : s.outputs = t.outputs := by
  have hecho : s.echoPort = t.echoPort := by
    cases hp : s.echoPending with
    | false => simp [State.echoPort, hp, ← h.echoPending_eq]
    | true => simp [State.echoPort, hp, ← h.echoPending_eq, h.echoByte_eq hp]
  have hready : s.reqReady false = t.reqReady false := by simp [State.reqReady, h.echoPending_eq]
  cases hi : s.initDone with
  | false =>
    have hoe := hinv.dirOe_eq.trans hi
    have hen := hinv.pwmEn_eq.trans hi
    simp [State.outputs, State.dirPin, State.pwmPin, State.status, hi, hoe, hen, ← h.initDone_eq, ← h.dirOe_eq,
      ← h.pwmEn_eq, hecho, hready, h.trace_eq]
  | true =>
    obtain ⟨hleft, hright⟩ := h.channels_eq hi
    have hpins (c : ChannelId) : s.dirPin c = t.dirPin c ∧ s.pwmPin c = t.pwmPin c := by
      have hch : s.ch c = t.ch c := by cases c <;> assumption
      rw [State.dirPin, State.dirPin, State.pwmPin, State.pwmPin, hch, h.dirOe_eq, h.pwmEn_eq]
      exact ⟨rfl, rfl⟩
    obtain ⟨hdirL, hpwmL⟩ := hpins .L
    obtain ⟨hdirR, hpwmR⟩ := hpins .R
    have hstatus : s.status = t.status := by rw [State.status, State.status, h.initDone_eq, hleft, hright]
    rw [State.outputs, State.outputs, hdirL, hdirR, hpwmL, hpwmR, hstatus, hecho, hready, h.trace_eq]

/-! ## The obligations -/

/-- Settles O35: the operations respect the agreement. -/
theorem operationsDoNotReadTheSignalLayer : Obligations.OperationsDoNotReadTheSignalLayer :=
  fun i _ _ h => opAgree_congruence.exec h i

/-- Settles O36: no pin shows `SPEED`, and operations, runs and edges respect the relation. -/
theorem storedSpeedInfluencesNothing : Obligations.StoredSpeedInfluencesNothing := by
  intro s t h
  refine ⟨fun c => ?pins, equalButSpeed_congruence.exec h, fun ops => equalButSpeed_congruence.runOps ops h,
    fun k => equalButSpeed_congruence.run k h⟩
  case pins =>
    obtain ⟨l, r, rfl⟩ := equalButSpeed_iff.mp h
    cases c with
    | L => exact ⟨rfl, rfl⟩
    | R => exact ⟨rfl, rfl⟩

/-- Settles O41: the outputs are gated, and every edge respects the agreement together with the invariant. -/
theorem unspecifiedResetValuesReachNoOutput : Obligations.UnspecifiedResetValuesReachNoOutput :=
  fun _ _ hinv h => ⟨h.outputs_eq hinv, (invSpecifiedAgree_congruence.step ⟨hinv, h⟩).mono fun h' => h'.agree⟩

end Sys2Proof.Machine
end

section
/-! PROOFS. Runs of operations and of edges (`42_command_loop.md` R117 to R122, `20_memory.md` R51, `70_reset_and_hazards.md`
R174): the canonical loop, the refinement of the operation layer by the clocked machine, and the end of a run. -/

namespace Sys2Proof.Machine

/-! ## One operation of a run -/

/-- An operation of a run leaves no echo pending (log entry 11), or the run is refused. -/
theorem operate_cases (i : Instr) (s : State) :
    (∃ t, operate i s = .next t ∧ t.echoPending = false) ∨ ∃ r, operate i s = .refused r := by
  cases h : exec i s with
  | next t => exact .inl ⟨t.takeEcho, operate_of_next h, t.takeEcho_echoPending⟩
  | fault f => exact nomatch f
  | refused r => exact .inr ⟨r, operate_of_refused h⟩

theorem operate_nop {s : State} (hp : s.echoPending = false) : operate .nop s = .next s := by
  rw [operate_of_next (rfl : exec .nop s = .next s), s.takeEcho_of_not_pending hp]

/-! ## The canonical loop -/

theorem echoedBytes_append (es es' : List Event) : echoedBytes (es ++ es') = echoedBytes es ++ echoedBytes es' := by
  induction es with
  | nil => rfl
  | cons e es ih =>
    cases e with
    | motor dirL dirR dutyL dutyR => exact ih
    | echo b => simp [echoedBytes, ih]

theorem emitMotor_echoedBytes (s : State) : echoedBytes s.emitMotor.trace = echoedBytes s.trace := by
  rw [State.emitMotor_trace, echoedBytes_append]
  simp [echoedBytes]

/-- What the canonical loop keeps once INIT is done: equal channels within 20 percent, and no echo pending between its
operations (R122). -/
structure LoopState (s : State) : Prop where
  initDone : s.initDone = true
  channels_eq : s.left = s.right
  speed_le : s.left.speed.toInt.natAbs ≤ 20
  echoPending : s.echoPending = false

theorem loopState_initialised {s : State} (hp : s.echoPending = false) : LoopState (initialised Config.built s) :=
  ⟨rfl, rfl, by rw [initialised_left]; decide, hp⟩

/-- A dispatch gives both channels one of the table's percents, none above 20, and echoes nothing. -/
theorem LoopState.dispatch {s : State} (h : LoopState s) (d : Directive) :
    LoopState (dispatch Config.built d s) ∧ echoedBytes (dispatch Config.built d s).trace = echoedBytes s.trace := by
  obtain hd | ⟨v, hv, hd⟩ := dispatch_built_cases d s
  · rw [hd]
    exact ⟨h, rfl⟩
  · rw [hd]
    refine ⟨⟨h.initDone, by simp [h.channels_eq], ?_, h.echoPending⟩, emitMotor_echoedBytes _⟩
    have hspeed : (setSpeeds Config.built v v s).left.speed.toInt = _ := (setSpeeds_drivenBy v s .L).speed
    rw [hspeed]
    obtain rfl | rfl | rfl := hv
    · decide
    · decide
    · decide

/-- One poll of the loop is never refused, and echoes the received byte, if there is one (R119). -/
theorem LoopState.operate_pollInstr {s : State} (h : LoopState s) (poll : Option Byte) :
    ∃ t, operate (pollInstr poll) s = .next t ∧ LoopState t ∧
      echoedBytes t.trace = echoedBytes s.trace ++ poll.toList := by
  cases poll with
  | none => exact ⟨s, operate_nop h.echoPending, h, by simp⟩
  | some b =>
    obtain ⟨hd, htrace⟩ := h.dispatch (decodeDirective Config.built b)
    refine ⟨_, operate_of_next (exec_commandInstr_of_initDone b h.initDone),
      ⟨by simpa using hd.initDone, by simpa using hd.channels_eq, by simpa using hd.speed_le, by simp⟩, ?_⟩
    rw [sendEcho_takeEcho_trace, echoedBytes_append, htrace]
    rfl

/-- The loop after INIT, by induction on the polls. -/
theorem LoopState.runOps_polls (polls : List (Option Byte)) {s : State} (h : LoopState s) :
    ∃ t, runOps (polls.map pollInstr) s = .next t ∧ LoopState t ∧
      echoedBytes t.trace = echoedBytes s.trace ++ polls.reduceOption := by
  induction polls generalizing s with
  | nil => exact ⟨s, runOps_nil s, h, by simp [List.reduceOption]⟩
  | cons poll polls ih =>
    obtain ⟨t, hop, ht, htrace⟩ := h.operate_pollInstr poll
    obtain ⟨u, hrun, hu, hutrace⟩ := ih ht
    refine ⟨u, (runOps_cons_of_next hop _).trans hrun, hu, ?_⟩
    rw [hutrace, htrace]
    cases poll with
    | none => simp [List.reduceOption_cons_of_none]
    | some b => simp [List.reduceOption_cons_of_some]

/-! ## The refinement -/

theorem advance_opAgree (s : State) (waiting : Option Request) : OpAgree (s.advance waiting) s :=
  ⟨.refl _, .refl _, rfl, rfl, rfl, rfl, rfl, rfl⟩

theorem tick_opAgree (s : State) : OpAgree s.tick s where
  left := ⟨by simp, by simp, by simp, by simp, by simp⟩
  right := ⟨by simp, by simp, by simp, by simp, by simp⟩
  initDone_eq := s.tick_initDone
  dirOe_eq := s.tick_dirOe
  pwmEn_eq := s.tick_pwmEn
  echoPending_eq := s.tick_echoPending
  echoByte_eq := s.tick_echoByte
  trace_eq := s.tick_trace

theorem OpAgree.symm {s t : State} (h : OpAgree s t) : OpAgree t s :=
  ⟨⟨h.left.speed_eq.symm, h.left.dir_eq.symm, h.left.duty_eq.symm, h.left.top_eq.symm, h.left.div_eq.symm⟩,
    ⟨h.right.speed_eq.symm, h.right.dir_eq.symm, h.right.duty_eq.symm, h.right.top_eq.symm, h.right.div_eq.symm⟩,
    h.initDone_eq.symm, h.dirOe_eq.symm, h.pwmEn_eq.symm, h.echoPending_eq.symm, h.echoByte_eq.symm, h.trace_eq.symm⟩

/-- A quiet edge may take the echo or leave it: once it is taken there is no difference. -/
theorem quietEdge_takeEcho (s : State) (ready : Bool) : (s.quietEdge ready).takeEcho = s.tick.takeEcho := by
  cases ready with
  | false => rfl
  | true => exact s.tick.takeEcho.takeEcho_of_not_pending s.tick.takeEcho_echoPending

theorem quietEdge_of_not_pending {s : State} (h : s.echoPending = false) (ready : Bool) : s.quietEdge ready = s.tick := by
  cases ready with
  | false => rfl
  | true => exact s.tick.takeEcho_of_not_pending (s.tick_echoPending.trans h)

theorem acceptedOps_of_accepted {k : Nat} {s t : State} {r : Request} (hstep : step s = .next t)
    (hrst : s.edgeInput.rst = false) (hacc : s.accepted s.edgeInput = some r) :
    acceptedOps (k + 1) s = decodeRequest r :: acceptedOps k t := by
  simp [acceptedOps, hstep, hrst, hacc]

theorem acceptedOps_of_not_accepted {k : Nat} {s t : State} (hstep : step s = .next t)
    (hacc : s.accepted s.edgeInput = none) : acceptedOps (k + 1) s = acceptedOps k t := by
  simp [acceptedOps, hstep, hacc]

/-- One edge without reset is, at the operation layer, the operation it accepts or nothing: the two ways around the
diagram lead to states that agree there. -/
theorem step_simulates {s t : State} (k : Nat) (hstep : step s = .next t) (hrst : s.edgeInput.rst = false) :
    ∃ u, runOps (acceptedOps (k + 1) s) s.takeEcho = runOps (acceptedOps k t) u ∧ OpAgree u t.takeEcho := by
  obtain ⟨hrst', -⟩ | ⟨-, hp, r, -, hacc, hexec⟩ | ⟨-, hacc, rfl⟩ := step_next_cases hstep
  case inl => simp [hrst] at hrst'
  case inr.inl =>
    have hagree := ((tick_opAgree (s.advance none)).trans (advance_opAgree s none)).symm
    obtain ⟨u, v, hu, hv, huv⟩ | ⟨x, -, hx⟩ := (opAgree_congruence.exec hagree (decodeRequest r)).cases
    · rw [hexec] at hv
      cases hv
      refine ⟨u.takeEcho, ?_, huv.takeEcho⟩
      rw [acceptedOps_of_accepted hstep hrst hacc, s.takeEcho_of_not_pending hp,
        runOps_cons_of_next (operate_of_next hu)]
    · rw [hexec] at hx
      cases hx
  case inr.inr =>
    refine ⟨s.takeEcho, by rw [acceptedOps_of_not_accepted hstep hacc], ?_⟩
    rw [quietEdge_takeEcho]
    exact ((tick_opAgree _).trans (advance_opAgree s _)).symm.takeEcho

/-! ## The end of a run -/

theorem runOver_iff (s : State) :
    s.runOver = true ↔ (∀ e ∈ s.host, e.req = none) ∧ s.held = none ∧ s.echoPending = false := by
  simp [State.runOver, and_assoc]

theorem edgeInput_req_of_forall {s : State} (h : ∀ e ∈ s.host, e.req = none) : s.edgeInput.req = none := by
  cases hs : s.host with
  | nil => rw [edgeInput_nil hs]; rfl
  | cons e rest => rw [edgeInput_cons hs]; exact h e (by simp [hs])

/-- A run that is over accepts nothing at the coming edge, and is over after it, reset or not (R174). -/
theorem runOver_step {s t : State} (h : s.runOver = true) (hstep : step s = .next t) :
    s.accepted s.edgeInput = none ∧ t.runOver = true := by
  obtain ⟨hhost, hheld, hp⟩ := (runOver_iff s).mp h
  have hreq := edgeInput_req_of_forall hhost
  have hrest : ∀ e ∈ s.host.tail, e.req = none := fun e he => hhost e (List.mem_of_mem_tail he)
  refine ⟨by simp [State.accepted, hreq], (runOver_iff t).mpr ?_⟩
  obtain ⟨-, rfl⟩ | ⟨-, -, r, hr, -⟩ | ⟨-, -, rfl⟩ := step_next_cases hstep
  · exact ⟨hrest, hreq, rfl⟩
  · simp [hreq] at hr
  · exact ⟨by simpa using hrest, by simp [hreq], by simp [hp]⟩

/-- Without a reset, an edge of a run that is over is a quiet one and keeps what the operation layer shows. -/
theorem runOver_step_of_not_rst {s : State} (h : s.runOver = true) (hrst : s.edgeInput.rst = false) :
    ∃ t, step s = .next t ∧ OpAgree s t := by
  obtain ⟨hhost, hheld, hp⟩ := (runOver_iff s).mp h
  refine ⟨_, step_of_no_request hheld hrst (edgeInput_req_of_forall hhost), ?_⟩
  rw [quietEdge_of_not_pending (s := s.advance none) hp]
  exact ((tick_opAgree _).trans (advance_opAgree s none)).symm

theorem acceptedOps_of_runOver (k : Nat) {s : State} (h : s.runOver = true) : acceptedOps k s = [] := by
  induction k generalizing s with
  | zero => rfl
  | succ k ih =>
    cases hstep : step s with
    | next t =>
      obtain ⟨hacc, ht⟩ := runOver_step h hstep
      rw [acceptedOps_of_not_accepted hstep hacc, ih ht]
    | fault f => exact nomatch f
    | refused r => simp [acceptedOps, hstep]

theorem run_of_runOver (k : Nat) {s : State} (h : s.runOver = true) (hnr : NoReset k s) :
    ∃ t, Host.Core.run Sys2Proof.core k s = .next t ∧ t.runOver = true ∧ OpAgree s t := by
  induction k generalizing s with
  | zero => exact ⟨s, run_zero s, h, .refl s⟩
  | succ k ih =>
    obtain ⟨t, hstep, hagree⟩ := runOver_step_of_not_rst h hnr.edgeInput
    obtain ⟨-, ht⟩ := runOver_step h hstep
    obtain ⟨u, hrun, hu, hagree'⟩ := ih ht (hnr.step hstep)
    exact ⟨u, by rw [run_succ, hstep]; exact hrun, hu, hagree.trans hagree'⟩

/-- A run that has taken the host's whole list and an idle edge has nothing left to present and nothing waiting: the
idle edge would have been refused otherwise (R58, log entries 3 and 5). -/
theorem run_past_host (n : Nat) {s t : State} (hn : s.host.length = n)
    (hrun : Host.Core.run Sys2Proof.core (n + 1) s = .next t) : t.host = [] ∧ t.held = none := by
  induction n generalizing s with
  | zero =>
    obtain ⟨u, hstep, hrest⟩ := run_succ_next hrun
    rw [run_zero] at hrest
    cases hrest
    have hnil := List.eq_nil_of_length_eq_zero hn
    have hidle := edgeInput_nil hnil
    refine ⟨by rw [step_host hstep, hnil]; rfl, ?_⟩
    obtain ⟨hrst, -⟩ | ⟨-, -, r, hr, -⟩ | ⟨-, -, rfl⟩ := step_next_cases hstep
    · simp [hidle, EdgeInput.idle] at hrst
    · simp [hidle, EdgeInput.idle] at hr
    · simp [hidle, EdgeInput.idle]
  | succ n ih =>
    obtain ⟨u, hstep, hrest⟩ := run_succ_next hrun
    exact ih (by simp [step_host hstep, hn]) hrest

/-! ## The obligations -/

/-- Settles O30, by induction on the operations. -/
theorem nopsBetweenOperationsChangeNothing : Obligations.NopsBetweenOperationsChangeNothing := by
  intro ops s hp
  induction ops generalizing s with
  | nil => rfl
  | cons i is ih =>
    by_cases hnop : i = .nop
    case pos =>
      rw [List.filter_cons_of_neg (by simp [hnop]), ih s hp, hnop, runOps_cons_of_next (operate_nop hp)]
    case neg =>
      rw [List.filter_cons_of_pos (by simp [hnop])]
      obtain ⟨t, hop, hpt⟩ | ⟨r, hop⟩ := operate_cases i s
      · rw [runOps_cons_of_next hop, runOps_cons_of_next hop, ih t hpt]
      · rw [runOps_cons_of_refused hop, runOps_cons_of_refused hop]

/-- Settles O31: INIT enters the loop's invariant, and every poll keeps it. -/
theorem canonicalLoopEchoesEveryByteInOrder : Obligations.CanonicalLoopEchoesEveryByteInOrder := by
  intro polls s hi hp
  have hloop := loopState_initialised hp
  have hinit : operate .init s = .next (initialised Config.built s) := by
    rw [operate_of_next (exec_init_of_not_initDone hi), State.takeEcho_of_not_pending _ hloop.echoPending]
  obtain ⟨t, hrun, ht, htrace⟩ := hloop.runOps_polls polls
  exact ⟨t, (runOps_cons_of_next hinit _).trans hrun, by rw [htrace]; exact congrArg (· ++ _) (emitMotor_echoedBytes _),
    ht.channels_eq, ht.speed_le, ht.echoPending⟩

/-- Settles O47, by induction on the edges: each one is simulated by the operation it accepts, and the rest of the run
respects the agreement. -/
theorem clockedRunIsRunOfAcceptedOperations : Obligations.ClockedRunIsRunOfAcceptedOperations := by
  intro k s t hnr hrun
  induction k generalizing s with
  | zero =>
    rw [run_zero] at hrun
    cases hrun
    exact ⟨t.takeEcho, runOps_nil _, .refl _⟩
  | succ k ih =>
    obtain ⟨v, hstep, hrest⟩ := run_succ_next hrun
    obtain ⟨u, hsim, hagree⟩ := step_simulates k hstep hnr.edgeInput
    obtain ⟨w, hops, hw⟩ := ih v (hnr.step hstep) hrest
    obtain ⟨x, y, hx, hy, hxy⟩ | ⟨r, -, hr⟩ := (opAgree_congruence.runOps (acceptedOps k v) hagree).cases
    · rw [hops] at hy
      cases hy
      exact ⟨x, hsim.trans hx, hxy.trans hw⟩
    · rw [hops] at hr
      cases hr

/-- Settles O54: over is what the definition's three tests say; an over run has only quiet edges left; and a run past
the host's list has nothing left to present. -/
theorem runIsOverWhenAllIsAcceptedAndEchoed : Obligations.RunIsOverWhenAllIsAcceptedAndEchoed := by
  refine ⟨runOver_iff, fun s h => ?notOver, fun s h => ⟨?final, fun k => ?later⟩, fun s t hrun hp => ?past⟩
  case notOver => simp [State.finalState, h]
  case final =>
    obtain ⟨-, -, hp⟩ := (runOver_iff s).mp h
    simp [State.finalState, h, hp]
  case later => exact ⟨acceptedOps_of_runOver k h, run_of_runOver k h⟩
  case past =>
    obtain ⟨hhost, hheld⟩ := run_past_host s.host.length rfl hrun
    exact (runOver_iff t).mpr ⟨by simp [hhost], hheld, hp⟩

end Sys2Proof.Machine
end

section
/-! PROOFS. The carrier frequency and the duty ratio (`43_pwm_generator.md` R137, R138). -/

namespace Sys2Proof.Machine

/-- The built carrier divides the clock by `CLOCK_DIVIDER * (CARRIER_TOP + 1) = 6250` (R137). -/
theorem carrierFrequency_built (fClk : Rat) : carrierFrequency Config.built fClk = fClk / 6250 := by
  have hdivisor : Config.built.clockDivider * (periodCycles Config.built.carrierTop : Nat) = (6250 : Rat) := by
    norm_num [Config.built, periodCycles]
  rw [carrierFrequency, hdivisor]

/-- Settles O51. -/
theorem carrierIsNominalExactlyAt125MHz : Obligations.CarrierIsNominalExactlyAt125MHz := by
  intro fClk
  refine ⟨carrierFrequency_built fClk, ?_⟩
  rw [carrierFrequency_built, div_eq_iff (by norm_num)]
  norm_num [Config.built]

/-- Settles O52: the period `TOP + 1` is positive and exceeds every compare value. -/
theorem dutyRatioStaysBelowOne : Obligations.DutyRatioStaysBelowOne := by
  refine ⟨fun a T haT => ?ratio, by norm_num [dutyRatio, periodCycles], by norm_num [dutyRatio, periodCycles],
    by norm_num [dutyRatio, periodCycles]⟩
  case ratio =>
    have hpos : (0 : Rat) < T + 1 := by positivity
    have hlt : (a : Rat) < T + 1 := by exact_mod_cast Nat.lt_succ_of_le haT
    have hratio : dutyRatio a T = a / (T + 1) := by simp [dutyRatio, periodCycles]
    rw [hratio]
    refine ⟨div_mul_cancel₀ _ hpos.ne', by positivity, (div_lt_one hpos).mpr hlt, ?_⟩
    rw [div_eq_zero_iff, or_iff_left hpos.ne', Nat.cast_eq_zero]

end Sys2Proof.Machine
end
